-- ==== Sys2Proof/Word.lean ====
section
/-! DEFINITION. The two word types of the bbtucrypt CORE (spec/00_scope.md R9): a word is 32 bits, a byte is 8 bits,
both unsigned. Their arithmetic is that of `BitVec`, which wraps as spec/00_scope.md R10 asks. -/

namespace Sys2Proof

/-- A word of 32 bits (R9; the parameter W of R8). -/
abbrev Word := BitVec 32

/-- A byte of 8 bits (R9). -/
abbrev Byte := BitVec 8

end Sys2Proof
end

