-- ==== Sys2Proof/Syntax.lean ====
section
/-! DEFINITION. The syntax: the sixteen commands (spec/30_encoding.md R94, spec/opcode_table.json), the registers
(spec/10_state.md R22), what a bus address reaches (spec/20_memory.md R63), the events the outside brings, and the
host-program statements (spec/30_encoding.md R97, R98). -/

namespace Sys2Proof

/-- The sixteen commands of R94, one constructor per row of spec/opcode_table.json. A command carries no operand (R93):
every operand is a fixed register or array of the command's rule (R95). -/
inductive Instr where
  /-- NOP (R210). -/
  | nop
  /-- ERR_CLEAR (R211). -/
  | errClear
  /-- PRNG_SEED (R116). -/
  | prngSeed
  /-- PRNG_NEXT (R117). -/
  | prngNext
  /-- NAME_SEED (R137). -/
  | nameSeed
  /-- NAME_SEED_RAW (R138). -/
  | nameSeedRaw
  /-- FILE_KEY (R139). -/
  | fileKey
  /-- KEY_COPY (R159). -/
  | keyCopy
  /-- KEY_XOR (R160). -/
  | keyXor
  /-- DESCRAMBLE (R161). -/
  | descramble
  /-- FILE_SETUP (R162). -/
  | fileSetup
  /-- BLOCK_ENC (R163). -/
  | blockEnc
  /-- BLOCK_DEC (R164). -/
  | blockDec
  /-- SFUNC (R165). -/
  | sfunc
  /-- STREAM_BEGIN (R194). -/
  | streamBegin
  /-- STREAM_PAIR (R195). -/
  | streamPair
  deriving DecidableEq, Repr

/-- The host-visible registers of R22. -/
inductive Reg where
  | cmd | status | arg0 | result | a | b | seed | nameLen | key1Len | key2Len
  | fkey0 | fkey1 | fkey2 | fkey3 | mti | pairIdx | pairsLeft | k1CurLen | k2CurLen | id
  deriving DecidableEq, Repr

/-- What a word address of the bus reaches (R63): a register, word `q` of the name buffer, an element of an array, or
nothing (reserved, R71). -/
inductive Target where
  | reg (r : Reg)
  | name (q : Nat)
  | ks1 (i : Nat)
  | k1 (i : Nat)
  | ks2 (i : Nat)
  | k2 (i : Nat)
  | mt (i : Nat)
  | reserved
  deriving DecidableEq, Repr

/-- One access of the host (R60): `MemRead(addr, bytes)` or `MemWrite(addr, bytes, v)`. Address and size are natural
numbers, so that an access the interface does not have (R61, R62, U5) can be written down and refused. -/
inductive HostAccess where
  | read (addr bytes : Nat)
  | write (addr bytes : Nat) (v : Word)
  deriving DecidableEq, Repr

/-- One event of the single order of R76. -/
inductive Event where
  /-- The host performs an access. -/
  | host (x : HostAccess)
  /-- The host program's `check` (R98): read STATUS, and stop the host program if STATUS.ERR is not 0. -/
  | check
  /-- The host program's `wait` (R97): read STATUS, and again until BUSY = 0. `polls` is how many more reads find BUSY = 1
  before the engine's turn: the spec's open LATENCY (R262, U6; log entry 13). -/
  | wait (polls : Nat)
  /-- The host reads STATUS, and if EMIT = 1 it reads A, then B, and appends them to the output
  (spec/43_stream.md R197 step 5). -/
  | collect
  /-- The host appends the last two words it has read to the output (R199). No access of the bus. -/
  | append
  /-- The engine takes its completion step if a command is in flight (R225). -/
  | engine
  /-- The reset event (R250). -/
  | reset
  deriving DecidableEq, Repr

/-- `ADDR_OR_REG` of R97: a register's name, an array element, or a numeric byte address. -/
inductive HostOperand where
  | reg (r : Reg)
  | name (q : Nat)
  | ks1 (i : Nat)
  | ks2 (i : Nat)
  | k1 (i : Nat)
  | k2 (i : Nat)
  | mt (i : Nat)
  | addr (n : Nat)
  deriving DecidableEq, Repr

/-- The statements of a host program (R97), its pseudo-statements (R98), and the output step of
spec/43_stream.md R197. `polls` is how many reads of STATUS find BUSY = 1 in a `wait` for a command in flight: the
spec's open LATENCY (R262, U6). -/
inductive HostStmt where
  | wr (x : HostOperand) (v : Word)
  | rd (x : HostOperand)
  | cmd (i : Instr)
  | wait (polls : Nat)
  | run (i : Instr) (polls : Nat)
  | name (str : List Byte)
  | loadkey1 (ws : List Word)
  | loadkey2 (ws : List Word)
  | pair (x y : Word)
  | check
  | collect
  deriving DecidableEq, Repr

end Sys2Proof
end

