-- ==== Sys2Proof/Decode.lean ====
section
/-! DEFINITION. Decoding and encoding of command words (spec/30_encoding.md R90-R94). -/

namespace Sys2Proof

/-- Why a word is no legal command (R91, R92). Both are the error ILLEGAL of R222. -/
inductive DecodeError where
  /-- RSV = w[31:8] is not 0. -/
  | reservedNotZero
  /-- RSV = 0 and OPC is not in the opcode map. -/
  | unknownOpcode
  deriving DecidableEq, Repr

/-- The field OPC = w[7:0] (R90). -/
def opcodeField (w : Word) : Byte := w.extractLsb' 0 8

/-- The field RSV = w[31:8] (R90). -/
def reservedField (w : Word) : BitVec 24 := w.extractLsb' 8 24

/-- The opcode map by OPC (R94); every other OPC is illegal (R92). -/
def opcodeOf : Byte → Option Instr
  | 0x00#8 => some .nop
  | 0x01#8 => some .errClear
  | 0x10#8 => some .prngSeed
  | 0x11#8 => some .prngNext
  | 0x20#8 => some .nameSeed
  | 0x21#8 => some .nameSeedRaw
  | 0x22#8 => some .fileKey
  | 0x30#8 => some .keyCopy
  | 0x31#8 => some .keyXor
  | 0x32#8 => some .descramble
  | 0x33#8 => some .fileSetup
  | 0x34#8 => some .blockEnc
  | 0x35#8 => some .blockDec
  | 0x36#8 => some .sfunc
  | 0x40#8 => some .streamBegin
  | 0x41#8 => some .streamPair
  | _ => none

/-- Decoding a command word (R91): RSV must be 0 and OPC one of the sixteen values. -/
def decode (w : Word) : Except DecodeError Instr :=
  if reservedField w = 0#24 then
    match opcodeOf (opcodeField w) with
    | some i => .ok i
    | none => .error .unknownOpcode
  else .error .reservedNotZero

/-- The command word of each command: the column "word" of R94. -/
def encode : Instr → Word
  | .nop => 0x00000000
  | .errClear => 0x00000001
  | .prngSeed => 0x00000010
  | .prngNext => 0x00000011
  | .nameSeed => 0x00000020
  | .nameSeedRaw => 0x00000021
  | .fileKey => 0x00000022
  | .keyCopy => 0x00000030
  | .keyXor => 0x00000031
  | .descramble => 0x00000032
  | .fileSetup => 0x00000033
  | .blockEnc => 0x00000034
  | .blockDec => 0x00000035
  | .sfunc => 0x00000036
  | .streamBegin => 0x00000040
  | .streamPair => 0x00000041

/-- The word whose bits are the low `nbits` bits of `w`, bit 0 the least significant: the numbering of
spec/opcode_table.json. A command is one 32-bit word (R90). -/
def tableWord (nbits w : Nat) : Word := BitVec.ofNat 32 (w % 2 ^ nbits)

/-- What the decoder reads from the instruction whose bits are `w`. -/
def decodeTableWord (nbits w : Nat) : Option Instr := (decode (tableWord nbits w)).toOption

end Sys2Proof
end

