-- ==== Sys2Proof/Machine/Bits.lean ====
section
/-! DEFINITION. Bytes and words: the byte order (spec/20_memory.md R65, R66, R74: little-endian everywhere) and the byte
swap of the key derivation (spec/41_key_derivation.md R134). -/

namespace Sys2Proof.Machine

/-- The four bytes of a word, least significant first (R65, R74). -/
def bytesOfWord (w : Word) : List Byte :=
  [w.extractLsb' 0 8, w.extractLsb' 8 8, w.extractLsb' 16 8, w.extractLsb' 24 8]

/-- The word with the given bytes, least significant first: byte[0] + 2^8·byte[1] + 2^16·byte[2] + 2^24·byte[3]
(R66, R74). -/
def wordOfBytes (b0 b1 b2 b3 : Byte) : Word := b3 ++ b2 ++ b1 ++ b0

/-- The bytes of a list of words, in order. -/
def bytesOfWords (ws : List Word) : List Byte := ws.flatMap bytesOfWord

/-- `bswap(x)` (R134): bits 7:0, 15:8, 23:16, 31:24 of x, from the top. -/
def bswap (x : Word) : Word :=
  wordOfBytes (x.extractLsb' 24 8) (x.extractLsb' 16 8) (x.extractLsb' 8 8) (x.extractLsb' 0 8)

end Sys2Proof.Machine
end

