-- ==== Sys2Proof/Config.lean ====
section
/-! DEFINITION. What an implementation of the block fixes (spec/00_scope.md R8) and the values the spec leaves free
(spec/93_implementation_defined.md U1-U4). The literals of the algorithms and of the address map are in
Machine/Constants.lean. -/

namespace Sys2Proof.Config

/-- The parameters that R8 says a model takes as arguments, each with its constraint: a `Params` cannot be built without
it. Every definition that depends on one takes a `Params`, and the machine itself is `Machine.stepFor` of one. The
fixed parameters W, N, M, SKIP_PAIRS and ADDR_W are `Word`, `Machine.mtWords`, `Machine.mtOffset`,
`Machine.skipPairs` and `addrWidth`; LATENCY is free (log entry 14). -/
structure Params where
  /-- `K1_MAX`: capacity in words of the key1 source and working arrays. -/
  k1Max : Nat
  /-- `K2_MAX`: capacity in words of the key2 source and working arrays. -/
  k2Max : Nat
  /-- `NAME_MAX`: capacity in bytes of the name buffer. -/
  nameMax : Nat
  /-- `PATH_SEPS`: the byte values that end a path segment, any set of them. -/
  pathSeps : List Byte
  /-- K1_MAX is even, 18 ≤ K1_MAX ≤ 4096. -/
  k1Max_legal : k1Max % 2 = 0 ∧ 18 ≤ k1Max ∧ k1Max ≤ 4096
  /-- K2_MAX is even, 1024 ≤ K2_MAX ≤ 16384. -/
  k2Max_legal : k2Max % 2 = 0 ∧ 1024 ≤ k2Max ∧ k2Max ≤ 16384
  /-- 1 ≤ NAME_MAX ≤ 256. -/
  nameMax_legal : 1 ≤ nameMax ∧ nameMax ≤ 256
  deriving DecidableEq, Repr

/-- The values that R8 fixes for this hardware (its column "this hardware"; decisions D19, D21, D23). `Machine.exec`,
`Machine.step` and `core` are the machine of these values (log entry 9). -/
def thisHardware : Params where
  k1Max := 1024
  k2Max := 4096
  nameMax := 256
  pathSeps := [0x2F]
  k1Max_legal := by decide
  k2Max_legal := by decide
  nameMax_legal := by decide

/-- `ADDR_W`: the width of a host bus byte address (R8, R60; fixed, 18). -/
def addrWidth : Nat := 18

/-- FREE VALUE. The byte an array element holds that nothing has written since the reset number `epoch`
(R252; U1, U2, U3: "any value", and stable). The second argument is the byte's bus address. Nothing constrains it:
log entries 4 and 5. -/
opaque unwritten : Nat → Nat → Byte

/-- FREE VALUE. The word returned by the n-th host read, while BUSY = 1, of a register or array that a command writes
(R73, U4: "a free 32-bit draw for each read"). Nothing constrains it: log entry 6. -/
opaque busyRead : Nat → Word

end Sys2Proof.Config
end

