-- ==== Sys2Proof/Machine/Constants.lean ====
section
/-! DEFINITION. Every literal of the algorithms, of the address map and of the register map, named once
(spec/91_not_in_source.md N3 asks for this: the source's literals are unaudited; log entry 22). -/

namespace Sys2Proof.Machine

/-- `N`: words of the generator's state (spec/00_scope.md R8). -/
def mtWords : Nat := 624
/-- `M`: the twist offset (R8, R112). -/
def mtOffset : Nat := 397
/-- The multiplier of the seeding recurrence (R111). -/
def seedMultiplier : Word := 0x6C078965
/-- The shift of the seeding recurrence (R111). -/
def seedShift : Nat := 30
/-- The high bit joined by the twist (R112). -/
def upperMask : Word := 0x80000000
/-- The low 31 bits joined by the twist (R112). -/
def lowerMask : Word := 0x7FFFFFFF
/-- The constant of the twist (R112). -/
def twistMatrix : Word := 0x9908B0DF
/-- The first tempering mask (R113). -/
def temperMaskB : Word := 0x9D2C5680
/-- The second tempering mask (R113). -/
def temperMaskC : Word := 0xEFC60000
/-- The start value of the seed hash (R133). -/
def nameHashStart : Word := 0x19570320
/-- The byte '.' (R132). -/
def dotByte : Byte := 0x2E
/-- `SKIP_PAIRS`: decrypted pairs dropped at the start of a stream (R8, R193; spec/90_conflicts.md C1). -/
def skipPairs : Nat := 2
/-- Words of key1 that the round functions read (R151, R152, R158). -/
def roundKeyWords : Nat := 18
/-- Words of key2 that the substitution function reads (R150, R158). -/
def sBoxWords : Nat := 1024
/-- The constant of the ID register (spec/10_state.md R39). -/
def idValue : Word := 0x42425401

/-- Start of the NAME window (spec/20_memory.md R63). -/
def nameBase : Nat := 0x00100
/-- End of the NAME window (R63). -/
def nameEnd : Nat := 0x00200
/-- Start of the KS1 window (R63). -/
def ks1Base : Nat := 0x04000
/-- Start of the K1 window and end of the KS1 window (R63). -/
def k1Base : Nat := 0x08000
/-- End of the K1 window (R63). -/
def k1End : Nat := 0x0C000
/-- Start of the KS2 window (R63). -/
def ks2Base : Nat := 0x10000
/-- Start of the K2 window and end of the KS2 window (R63). -/
def k2Base : Nat := 0x20000
/-- Start of the MT window and end of the K2 window (R63). -/
def mtBase : Nat := 0x30000
/-- End of the MT window (R63). -/
def mtEnd : Nat := 0x31000

end Sys2Proof.Machine
end

