-- ==== Sys2Proof/Machine/State.lean ====
section
/-! DEFINITION. The state of the block (spec/10_state.md R20-R57), the reasons a step can stop, and the state after
reset. State is plain data. -/

namespace Sys2Proof.Machine

/-- The arrays MT, KS1, KS2, K1, K2 and NAME (R45-R50) as one list of bus address and byte, in one canonical form:
addresses strictly rising (`Memory.wf`). An address that is not listed has not been written since reset; it has no
value here, and what it reads as is the free value `Config.unwritten` (log entries 4 and 7). -/
abbrev Memory := List Host.Cell

/-- The error codes of spec/60_exceptions.md R222. -/
inductive ErrCode where
  | config | inputSize | illegal | notSeeded | sequence | busy | nameLen
  deriving DecidableEq, Repr

/-- The machine has no fault: a command's error is a code in STATUS.ERR and a next state (R220), and a completion step
cannot fail (R225). No constructor, so nothing raises one. -/
inductive Fault
  deriving DecidableEq, Repr

/-- Why a step has no meaning. -/
inductive Refusal where
  /-- An instruction without a meaning yet, by its mnemonic. Raised by no arm of `exec` (every command has its meaning). Safe. -/
  | notModelled (mnemonic : String)
  /-- A host access whose size is not 4 bytes, raised by `hostStep` (spec/20_memory.md R62 "A model refuses any other
  width", U5). Safe: the interface has no such access. -/
  | unsupportedWidth
  /-- A host access at or above 2^18, raised by `hostStep` (R60, U5: `refuse`). Safe. -/
  | addressOutOfRange
  /-- A host access with `addr[1:0]` not 0, raised by `hostStep` (R61 "A model refuses a host access with addr[1:0] ≠ 0",
  U5). Safe. -/
  | misalignedAccess
  deriving DecidableEq, Repr

/-- The state of the block. STATUS is held as its fields (R24); `statusWord` is the register as the host reads it. CMD
and ID hold no state (R23, R39). The last five fields are the model's own. -/
structure State where
  /-- STATUS.BUSY (R25). -/
  busy : Bool
  /-- STATUS.PRNG_VALID (R26). -/
  prngValid : Bool
  /-- STATUS.FKEY_VALID (R27). -/
  fkeyValid : Bool
  /-- STATUS.KEYS_COPIED (R28). -/
  keysCopied : Bool
  /-- STATUS.KEYS_READY (R29). -/
  keysReady : Bool
  /-- STATUS.STREAM_ACTIVE (R30). -/
  streamActive : Bool
  /-- STATUS.EMIT (R31). -/
  emit : Bool
  /-- STATUS.ERR (R32). -/
  err : BitVec 4
  /-- ARG0 (R33). -/
  arg0 : Word
  /-- RESULT (R34). -/
  result : Word
  /-- A (R35). -/
  a : Word
  /-- B (R35). -/
  b : Word
  /-- SEED (R36). -/
  seed : Word
  /-- NAME_LEN bits 15:0 (R37). -/
  nameLen : BitVec 16
  /-- KEY1_LEN bits 15:0 (R38). -/
  key1Len : BitVec 16
  /-- KEY2_LEN bits 15:0 (R38). -/
  key2Len : BitVec 16
  /-- FKEY0 (R40). -/
  fkey0 : Word
  /-- FKEY1 (R40). -/
  fkey1 : Word
  /-- FKEY2 (R40). -/
  fkey2 : Word
  /-- FKEY3 (R40). -/
  fkey3 : Word
  /-- MTI bits 9:0 (R41). -/
  mti : BitVec 10
  /-- PAIR_IDX (R42). -/
  pairIdx : Word
  /-- PAIRS_LEFT (R43). -/
  pairsLeft : Word
  /-- K1_CUR_LEN bits 15:0 (R44). -/
  k1CurLen : BitVec 16
  /-- K2_CUR_LEN bits 15:0 (R44). -/
  k2CurLen : BitVec 16
  /-- INFLIGHT (R51): none, or the accepted command; its word is `encode` of it (log entry 15). -/
  inflight : Option Instr
  /-- The arrays MT, KS1, KS2, K1, K2 and NAME (R45-R50). -/
  mem : Memory
  /-- The model's own: the events still to come, oldest first (log entry 1). -/
  agenda : List Event
  /-- The model's own: the words returned to the host's reads, newest first (log entry 11). -/
  reads : List Word
  /-- The model's own: the bytes the host has appended to the output, in order (spec/43_stream.md R197, R199; log
  entry 24). -/
  output : List Byte
  /-- The model's own: how many free words reads under BUSY have taken (U4; log entry 6). -/
  draws : Nat
  /-- The model's own: how many reset events there have been (log entries 4 and 5). -/
  epoch : Nat
  deriving DecidableEq, Repr

/-- The machine right after reset (R57, R250, R251): every register 0, INFLIGHT none, nothing written in any array
(R252). The last five fields are the model's own (log entry 21). -/
def State.reset : State where
  busy := false
  prngValid := false
  fkeyValid := false
  keysCopied := false
  keysReady := false
  streamActive := false
  emit := false
  err := 0
  arg0 := 0
  result := 0
  a := 0
  b := 0
  seed := 0
  nameLen := 0
  key1Len := 0
  key2Len := 0
  fkey0 := 0
  fkey1 := 0
  fkey2 := 0
  fkey3 := 0
  mti := 0
  pairIdx := 0
  pairsLeft := 0
  k1CurLen := 0
  k2CurLen := 0
  inflight := none
  mem := []
  agenda := []
  reads := []
  output := []
  draws := 0
  epoch := 0

end Sys2Proof.Machine
end

