-- ==== Sys2Proof/Machine/Flags.lean ====
section
/-! DEFINITION. Every flag and code computation of the spec: the error codes, the STATUS word, the legality of key
lengths, the input-size rule, the EMIT verdict and STREAM_ACTIVE. -/

namespace Sys2Proof.Machine

/-- The code of an error (spec/60_exceptions.md R222). -/
def ErrCode.code : ErrCode → BitVec 4
  | .config => 1
  | .inputSize => 2
  | .illegal => 3
  | .notSeeded => 4
  | .sequence => 5
  | .busy => 6
  | .nameLen => 7

/-- A flag as one bit. -/
def flagBit (f : Bool) : BitVec 1 := BitVec.ofBool f

/-- STATUS as the host reads it (spec/10_state.md R24): ERR in bits 11:8, the flags in bits 6:0, bits 7 and 31:12
zero (R55). -/
def State.statusWord (s : State) : Word :=
  0#20 ++ s.err ++ 0#1 ++ flagBit s.emit ++ flagBit s.streamActive ++ flagBit s.keysReady ++ flagBit s.keysCopied
    ++ flagBit s.fkeyValid ++ flagBit s.prngValid ++ flagBit s.busy

/-- KEY1_LEN is legal when it is even and 18 ≤ KEY1_LEN ≤ K1_MAX (R38). -/
def key1LenLegal (p : Config.Params) (n : Nat) : Bool := n % 2 == 0 && roundKeyWords ≤ n && n ≤ p.k1Max

/-- KEY2_LEN is legal when it is even and 1024 ≤ KEY2_LEN ≤ K2_MAX (R38). -/
def key2LenLegal (p : Config.Params) (n : Nat) : Bool := n % 2 == 0 && sBoxWords ≤ n && n ≤ p.k2Max

/-- NAME_LEN ≤ NAME_MAX (spec/41_key_derivation.md R136). -/
def nameLenLegal (p : Config.Params) (n : Nat) : Bool := n ≤ p.nameMax

/-- `SizeOK(n)` (spec/43_stream.md R192): the byte length is a multiple of 4 and the word count is even. -/
def sizeOK (n : Nat) : Bool := n % 4 == 0 && n / 4 % 2 == 0

/-- The skip rule (R193): pair `k` of a stream is emitted exactly when k ≥ SKIP_PAIRS. -/
def emitFlag (k : Word) : Bool := skipPairs ≤ k.toNat

/-- STREAM_ACTIVE as STREAM_BEGIN and STREAM_PAIR write it: 1 if PAIRS_LEFT ≠ 0 else 0 (R194, R195). -/
def activeFlag (pairsLeft : Word) : Bool := pairsLeft != 0#32

end Sys2Proof.Machine
end

