-- ==== Sys2Proof/Machine/Ops.lean ====
section
/-! DEFINITION. The shared operations: one byte of memory and storing bytes, the updates of the state that several
commands make, recording an error (the block's only exception, spec/60_exceptions.md R224) and leaving the error
state, and the two parts of every command: issue (R223) and completion (R225). -/

namespace Sys2Proof.Machine

/-- The canonical form of the memory: addresses strictly rising. -/
abbrev Memory.wf (m : Memory) : Prop := m.Pairwise (fun x y => x.1 < y.1)

/-- The byte written at an address since reset, if there is one. -/
def Memory.find (m : Memory) (addr : Nat) : Option Byte :=
  match m with
  | [] => none
  | (x, v) :: rest => if x = addr then some v else Memory.find rest addr

/-- Cells for bytes at rising addresses. -/
def cellsFrom (addr : Nat) : List Byte → Memory
  | [] => []
  | v :: vs => (addr, v) :: cellsFrom (addr + 1) vs

/-- Store the bytes `vs` at `addr`, `addr + 1`, and so on, keeping the canonical form. -/
def Memory.store (m : Memory) (addr : Nat) (vs : List Byte) : Memory :=
  m.filter (fun c => decide (c.1 < addr)) ++ cellsFrom addr vs ++
    m.filter (fun c => decide (addr + vs.length ≤ c.1))

/-- The cells at addresses from `lo` up to and not including `hi`. -/
def Memory.slice (m : Memory) (lo hi : Nat) : Memory := m.filter (fun c => decide (lo ≤ c.1) && decide (c.1 < hi))

/-- One byte at a bus address, out of the cells `m`: what was written, or the free value of an element that nothing has
written since reset (spec/93_implementation_defined.md U1-U3; log entry 4). -/
def byteIn (epoch : Nat) (m : Memory) (addr : Nat) : Byte := (Memory.find m addr).getD (Config.unwritten epoch addr)

/-- The word at a bus address, out of the cells `m`, least significant byte first (spec/20_memory.md R65, R74). -/
def wordIn (epoch : Nat) (m : Memory) (addr : Nat) : Word :=
  wordOfBytes (byteIn epoch m addr) (byteIn epoch m (addr + 1)) (byteIn epoch m (addr + 2)) (byteIn epoch m (addr + 3))

/-- One byte of the arrays, by its bus address. -/
def State.byte (s : State) (addr : Nat) : Byte := byteIn s.epoch s.mem addr

/-- One word of the arrays, by its bus address. -/
def State.word (s : State) (addr : Nat) : Word := wordIn s.epoch s.mem addr

/-- The `n` words from bus address `base` on, in order. -/
def State.loadWords (s : State) (base n : Nat) : List Word :=
  (List.range n).map (fun i => wordIn s.epoch (Memory.slice s.mem base (base + 4 * n)) (base + 4 * i))

/-- Replace the arrays' contents. -/
def State.setMem (s : State) (m : Memory) : State := { s with mem := m }

/-- Store words from bus address `base` on, in order. -/
def State.storeWords (s : State) (base : Nat) (ws : List Word) : State :=
  s.setMem (Memory.store s.mem base (bytesOfWords ws))

/-- The events still to come. -/
def State.setAgenda (s : State) (es : List Event) : State := { s with agenda := es }

/-- A host read returns `v`. -/
def State.answer (s : State) (v : Word) : State := { s with reads := v :: s.reads }

/-- A host read returns a free word (spec/20_memory.md R73, U4). -/
def State.answerFree (s : State) : State :=
  { s with reads := Config.busyRead s.draws :: s.reads, draws := s.draws + 1 }

/-- `raise Err(code)` (spec/60_exceptions.md R224), the block's only exception: ERR takes the code if it was 0, first
error wins, and nothing else changes. There is no saved register, vector or mode (R220). -/
def State.raiseErr (s : State) (c : ErrCode) : State := { s with err := if s.err = 0#4 then c.code else s.err }

/-- Leaving the error state (spec/44_control.md R211): ERR becomes 0 and nothing else changes. -/
def State.clearErr (s : State) : State := { s with err := 0 }

/-- Accepting a command (R223 step 5): INFLIGHT takes it and BUSY becomes 1. -/
def State.accept (s : State) (i : Instr) : State := { s with inflight := some i, busy := true }

/-- The end of a completion step (R225): INFLIGHT becomes none and BUSY 0. -/
def State.retire (s : State) : State := { s with inflight := none, busy := false }

/-- `StreamAbort()` (spec/43_stream.md R191): PAIR_IDX is left as it was. -/
def State.streamAbort (s : State) : State := { s with pairsLeft := 0, streamActive := false, emit := false }

/-- The reset event (spec/70_reset_and_hazards.md R250, R252): every register at its reset value, the command in flight
abandoned, no array element written since. What the outside has yet to do, has read and has written out is not the block's,
and the count of resets goes up (log entry 5). -/
def State.onReset (s : State) : State :=
  { State.reset with agenda := s.agenda, reads := s.reads, output := s.output, draws := s.draws, epoch := s.epoch + 1 }

/-- An issue check: an error unless the condition holds. -/
def require (ok : Bool) (c : ErrCode) : Option ErrCode := if ok then none else some c

/-- The issue of a legal command (R223): step 1 (BUSY), step 2 (the sticky-error drop, which spares ERR_CLEAR), step 4
(the command's own checks; `check` gives the first that fails) and step 5 (acceptance). Step 3, ILLEGAL, is for words
that decode to no command. -/
def issue (i : Instr) (check : State → Option ErrCode) (s : State) : State :=
  if s.busy then s.raiseErr .busy
  else if s.err ≠ 0#4 ∧ i ≠ .errClear then s
  else match check s with
    | some c => s.raiseErr c
    | none => s.accept i

/-- A command's whole rule: if it is the command in flight, its completion step (R225), that is its effect and then
`retire`; else its issue (R223). Log entry 3. -/
def command (i : Instr) (check : State → Option ErrCode) (effect : State → State) (s : State) :
    Host.Outcome State Fault Refusal :=
  if s.inflight = some i then .next (effect s).retire else .next (issue i check s)

end Sys2Proof.Machine
end

