-- ==== Sys2Proof/Machine/Control.lean ====
section
/-! DEFINITION. The control commands (spec/44_control.md): NOP and ERR_CLEAR. -/

namespace Sys2Proof.Machine

/-- NOP has no issue check of its own (R210). -/
def nopCheck (_ : State) : Option ErrCode := none

/-- NOP at completion (R210): no effect. -/
def nopEffect (s : State) : State := s

/-- NOP (R210). -/
def execNop (s : State) : Host.Outcome State Fault Refusal := command .nop nopCheck nopEffect s

/-- ERR_CLEAR has no issue check of its own, and `issue` accepts it even while ERR is not 0 (R211). -/
def errClearCheck (_ : State) : Option ErrCode := none

/-- ERR_CLEAR at completion (R211): ERR ← 0. -/
def errClearEffect (s : State) : State := s.clearErr

/-- ERR_CLEAR (R211). -/
def execErrClear (s : State) : Host.Outcome State Fault Refusal := command .errClear errClearCheck errClearEffect s

end Sys2Proof.Machine
end

