-- ==== Sys2Proof/Machine/Operands.lean ====
section
/-! DEFINITION. Operands: the elements of the arrays (spec/10_state.md R45-R50), the file-key registers (R40), the
registers by offset (R22), the address map (spec/20_memory.md R63), what a host read of each returns (R64-R71) and what
a host write of each stores (R56, R65, R66). -/

namespace Sys2Proof.Machine

/-- The bus address of element `i` of an array of words at `base` (R63). -/
def elementAddr (base i : Nat) : Nat := base + 4 * i

/-- MT[i] (R45). -/
def State.mtWord (s : State) (i : Nat) : Word := s.word (elementAddr mtBase i)

/-- KS1[i] (R46). -/
def State.ks1Word (s : State) (i : Nat) : Word := s.word (elementAddr ks1Base i)

/-- KS2[i] (R47). -/
def State.ks2Word (s : State) (i : Nat) : Word := s.word (elementAddr ks2Base i)

/-- K1[i] (R48). -/
def State.k1Word (s : State) (i : Nat) : Word := s.word (elementAddr k1Base i)

/-- K2[i] (R49). -/
def State.k2Word (s : State) (i : Nat) : Word := s.word (elementAddr k2Base i)

/-- NAME[k] (R50). -/
def State.nameByte (s : State) (k : Nat) : Byte := s.byte (nameBase + k)

/-- The name operand NAME[0..NAME_LEN-1] (spec/41_key_derivation.md R136). -/
def State.nameBytes (s : State) : List Byte := (List.range s.nameLen.toNat).map s.nameByte

/-- Store the whole of MT (R45); words beyond its 624 elements do not exist. -/
def State.storeMT (s : State) (ws : List Word) : State := s.storeWords mtBase (ws.take mtWords)

/-- Store K1 from index 0 on (R48); words beyond K1_MAX do not exist. -/
def State.storeK1 (s : State) (p : Config.Params) (ws : List Word) : State := s.storeWords k1Base (ws.take p.k1Max)

/-- Store K2 from index 0 on (R49); words beyond K2_MAX do not exist. -/
def State.storeK2 (s : State) (p : Config.Params) (ws : List Word) : State := s.storeWords k2Base (ws.take p.k2Max)

/-- FKEY[k mod 4] (R40, spec/42_feistel.md R153). -/
def State.fkey (s : State) (k : Nat) : Word :=
  match k % 4 with
  | 0 => s.fkey0
  | 1 => s.fkey1
  | 2 => s.fkey2
  | _ => s.fkey3

/-- The register at a byte offset of the register block (R22); the other offsets are reserved (R55). -/
def Reg.ofOffset : Nat → Option Reg
  | 0x000 => some .cmd
  | 0x004 => some .status
  | 0x008 => some .arg0
  | 0x00C => some .result
  | 0x010 => some .a
  | 0x014 => some .b
  | 0x018 => some .seed
  | 0x01C => some .nameLen
  | 0x020 => some .key1Len
  | 0x024 => some .key2Len
  | 0x028 => some .fkey0
  | 0x02C => some .fkey1
  | 0x030 => some .fkey2
  | 0x034 => some .fkey3
  | 0x038 => some .mti
  | 0x03C => some .pairIdx
  | 0x040 => some .pairsLeft
  | 0x044 => some .k1CurLen
  | 0x048 => some .k2CurLen
  | 0x04C => some .id
  | _ => none

/-- The byte offset of a register (R22). -/
def Reg.offset : Reg → Nat
  | .cmd => 0x000
  | .status => 0x004
  | .arg0 => 0x008
  | .result => 0x00C
  | .a => 0x010
  | .b => 0x014
  | .seed => 0x018
  | .nameLen => 0x01C
  | .key1Len => 0x020
  | .key2Len => 0x024
  | .fkey0 => 0x028
  | .fkey1 => 0x02C
  | .fkey2 => 0x030
  | .fkey3 => 0x034
  | .mti => 0x038
  | .pairIdx => 0x03C
  | .pairsLeft => 0x040
  | .k1CurLen => 0x044
  | .k2CurLen => 0x048
  | .id => 0x04C

/-- An array element if the index is inside the array, else reserved (R63 "an address inside a window but beyond the
parameter-sized array is reserved", R71). -/
def elementOr (t : Nat → Target) (i size : Nat) : Target := if i < size then t i else .reserved

/-- What a byte offset of the register block reaches (R22, R55). -/
def regTarget (addr : Nat) : Target :=
  match Reg.ofOffset addr with
  | some r => .reg r
  | none => .reserved

/-- The address map (R63): what the word at an aligned bus address is. -/
def decodeAddr (p : Config.Params) (addr : Nat) : Target :=
  if addr < nameBase then regTarget addr
  else if addr < nameEnd then elementOr .name ((addr - nameBase) / 4) ((p.nameMax + 3) / 4)
  else if addr < ks1Base then .reserved
  else if addr < k1Base then elementOr .ks1 ((addr - ks1Base) / 4) p.k1Max
  else if addr < k1End then elementOr .k1 ((addr - k1Base) / 4) p.k1Max
  else if addr < ks2Base then .reserved
  else if addr < k2Base then elementOr .ks2 ((addr - ks2Base) / 4) p.k2Max
  else if addr < mtBase then elementOr .k2 ((addr - k2Base) / 4) p.k2Max
  else if addr < mtEnd then elementOr .mt ((addr - mtBase) / 4) mtWords
  else .reserved

/-- What a host read of a register returns (R22-R44, R55): CMD reads 0, the narrow registers read 0 above their bits. -/
def State.regValue (s : State) : Reg → Word
  | .cmd => 0
  | .status => s.statusWord
  | .arg0 => s.arg0
  | .result => s.result
  | .a => s.a
  | .b => s.b
  | .seed => s.seed
  | .nameLen => s.nameLen.setWidth 32
  | .key1Len => s.key1Len.setWidth 32
  | .key2Len => s.key2Len.setWidth 32
  | .fkey0 => s.fkey0
  | .fkey1 => s.fkey1
  | .fkey2 => s.fkey2
  | .fkey3 => s.fkey3
  | .mti => s.mti.setWidth 32
  | .pairIdx => s.pairIdx
  | .pairsLeft => s.pairsLeft
  | .k1CurLen => s.k1CurLen.setWidth 32
  | .k2CurLen => s.k2CurLen.setWidth 32
  | .id => idValue

/-- Byte `k` of the name buffer as a host read of its window sees it: bytes beyond NAME_MAX do not exist and read 0
(R65; in this hardware the buffer fills the window, so there is none). -/
def State.nameWindowByte (s : State) (p : Config.Params) (k : Nat) : Byte := if k < p.nameMax then s.nameByte k else 0

/-- The word `q` of the name window: NAME[4q], NAME[4q+1], NAME[4q+2], NAME[4q+3], the first lowest (R65). -/
def State.nameWindowWord (s : State) (p : Config.Params) (q : Nat) : Word :=
  wordOfBytes (s.nameWindowByte p (4 * q)) (s.nameWindowByte p (4 * q + 1)) (s.nameWindowByte p (4 * q + 2))
    (s.nameWindowByte p (4 * q + 3))

/-- What a host read of each target returns when it is not unspecified (R64-R71). -/
def State.targetValue (s : State) (p : Config.Params) : Target → Word
  | .reg r => s.regValue r
  | .name q => s.nameWindowWord p q
  | .ks1 i => s.ks1Word i
  | .k1 i => s.k1Word i
  | .ks2 i => s.ks2Word i
  | .k2 i => s.k2Word i
  | .mt i => s.mtWord i
  | .reserved => 0

/-- The registers that a command writes and that R73 names: a read of one while BUSY = 1 is unspecified. -/
def Reg.commandWritten : Reg → Bool
  | .result | .a | .b | .seed | .fkey0 | .fkey1 | .fkey2 | .fkey3 | .mti | .pairIdx | .pairsLeft | .k1CurLen
  | .k2CurLen => true
  | .cmd | .status | .arg0 | .nameLen | .key1Len | .key2Len | .id => false

/-- The registers and arrays of R73 whose value is unspecified while BUSY = 1 (U4). -/
def Target.commandWritten : Target → Bool
  | .reg r => Reg.commandWritten r
  | .k1 _ | .k2 _ | .mt _ => true
  | .name _ | .ks1 _ | .ks2 _ | .reserved => false

/-- What a host write of `v` to a register stores while BUSY = 0 (R56): RW registers store it, NAME_LEN, KEY1_LEN and
KEY2_LEN its bits 15:0; RO registers ignore it. (CMD holds nothing, R23: a write to it issues a command.) -/
def State.writeReg (s : State) (r : Reg) (v : Word) : State :=
  match r with
  | .arg0 => { s with arg0 := v }
  | .a => { s with a := v }
  | .b => { s with b := v }
  | .nameLen => { s with nameLen := v.setWidth 16 }
  | .key1Len => { s with key1Len := v.setWidth 16 }
  | .key2Len => { s with key2Len := v.setWidth 16 }
  | .cmd | .status | .result | .seed | .fkey0 | .fkey1 | .fkey2 | .fkey3 | .mti | .pairIdx | .pairsLeft | .k1CurLen
  | .k2CurLen | .id => s

/-- What a host write of `v` to a target stores while BUSY = 0: NAME bytes below NAME_MAX (R65), KS1 and KS2 words
(R66); K1, K2, MT and reserved addresses ignore it (R68-R71). -/
def State.writeTarget (s : State) (p : Config.Params) (t : Target) (v : Word) : State :=
  match t with
  | .reg r => s.writeReg r v
  | .name q => s.setMem (Memory.store s.mem (nameBase + 4 * q) ((bytesOfWord v).take (p.nameMax - 4 * q)))
  | .ks1 i => s.storeWords (elementAddr ks1Base i) [v]
  | .ks2 i => s.storeWords (elementAddr ks2Base i) [v]
  | .k1 _ | .k2 _ | .mt _ | .reserved => s

end Sys2Proof.Machine
end

