-- ==== Sys2Proof/Machine/Prng.lean ====
section
/-! DEFINITION. The PRNG (spec/40_prng.md): seeding, twist, tempering, draw, and the commands PRNG_SEED and PRNG_NEXT. -/

namespace Sys2Proof.Machine

/-- One step of the seeding recurrence (R111): the word `i` from the word before it. -/
def seedStep (i : Nat) (prev : Word) : Word :=
  BitVec.ofNat 32 i + seedMultiplier * (prev ^^^ (prev >>> seedShift))

/-- The `n` words that follow `prev`, the first of them with index `i`. -/
def seedTail : Nat → Nat → Word → List Word
  | 0, _, _ => []
  | n + 1, i, prev => seedStep i prev :: seedTail n (i + 1) (seedStep i prev)

/-- `MTInit(s)` as the 624 words it leaves in MT (R111). -/
def mtInit (s : Word) : List Word := s :: seedTail (mtWords - 1) 1 s

/-- The new word of the twist from the words i, i+1 and i+397 (R112). PRESUMED by the spec where it says "from general
knowledge" (G1; log entry 10). -/
def twistWord (cur nxt far : Word) : Word :=
  let y := (cur &&& upperMask) ||| (nxt &&& lowerMask)
  let t := far ^^^ (y >>> 1)
  if y.getLsbD 0 then t ^^^ twistMatrix else t

/-- One iteration of the twist loop, in place (R112). -/
def twistStep (mt : List Word) (i : Nat) : List Word :=
  mt.set i (twistWord (mt.getD i 0) (mt.getD ((i + 1) % mtWords) 0) (mt.getD ((i + mtOffset) % mtWords) 0))

/-- `Twist()` (R112): i = 0..623 in increasing order, each iteration on what the earlier ones left. -/
def twist (mt : List Word) : List Word := (List.range mtWords).foldl twistStep mt

/-- `Temper(y)` (R113). PRESUMED by the spec where it says "from general knowledge" (G2; log entry 10). -/
def temper (y : Word) : Word :=
  let y := y ^^^ (y >>> 11)
  let y := y ^^^ ((y <<< 7) &&& temperMaskB)
  let y := y ^^^ ((y <<< 15) &&& temperMaskC)
  y ^^^ (y >>> 18)

/-- `MTInit(s)` on the state (R111): MT takes the recurrence's words and MTI becomes 0. -/
def State.mtSeed (s : State) (v : Word) : State := { s.storeMT (mtInit v) with mti := 0 }

/-- The twist that a draw makes first when MTI = 0 (R114). -/
def State.twistIfDue (s : State) : State :=
  if s.mti = 0#10 then s.storeMT (twist (s.loadWords mtBase mtWords)) else s

/-- The word `Next()` returns (R114): the word at the cursor, after the twist if one is due, tempered. -/
def State.drawWord (s : State) : Word := temper (s.twistIfDue.mtWord s.mti.toNat)

/-- The state `Next()` leaves (R114): twisted if due, the cursor advanced modulo 624. -/
def State.drawNext (s : State) : State :=
  { s.twistIfDue with mti := BitVec.ofNat 10 ((s.mti.toNat + 1) % mtWords) }

/-- PRNG_SEED has no issue check of its own (R116). -/
def prngSeedCheck (_ : State) : Option ErrCode := none

/-- PRNG_SEED at completion (R116): MTInit(ARG0), PRNG_VALID ← 1. -/
def prngSeedEffect (s : State) : State := { s.mtSeed s.arg0 with prngValid := true }

/-- PRNG_SEED (R116). -/
def execPrngSeed (s : State) : Host.Outcome State Fault Refusal := command .prngSeed prngSeedCheck prngSeedEffect s

/-- PRNG_NEXT raises NOT_SEEDED while PRNG_VALID = 0 (R117). -/
def prngNextCheck (s : State) : Option ErrCode := require s.prngValid .notSeeded

/-- PRNG_NEXT at completion (R117): RESULT ← Next(). -/
def prngNextEffect (s : State) : State := { s.drawNext with result := s.drawWord }

/-- PRNG_NEXT (R117). -/
def execPrngNext (s : State) : Host.Outcome State Fault Refusal := command .prngNext prngNextCheck prngNextEffect s

end Sys2Proof.Machine
end

