-- ==== Sys2Proof/Machine/KeyDerivation.lean ====
section
/-! DEFINITION. Key derivation (spec/41_key_derivation.md): name normalisation, seed hash, file key, and the commands
NAME_SEED, NAME_SEED_RAW and FILE_KEY. -/

namespace Sys2Proof.Machine

/-- `Segment(path)` (R130): the bytes after the last byte in `seps` (PATH_SEPS); all of them if there is none. -/
def pathSegment (seps path : List Byte) : List Byte := (path.reverse.takeWhile (fun c => !seps.contains c)).reverse

/-- Uppercasing one byte (R131): 'a'..'z' lose 0x20, every other byte stays. -/
def upperByte (c : Byte) : Byte := if 0x61#8 ≤ c ∧ c ≤ 0x7A#8 then c - 0x20#8 else c

/-- `Upper(s)` (R131). -/
def upper (p : List Byte) : List Byte := p.map upperByte

/-- `StripExt(u)` (R132): the bytes before the last '.'; all of them if there is none. -/
def stripExt (u : List Byte) : List Byte :=
  if u.contains dotByte then ((u.reverse.dropWhile (fun c => c != dotByte)).drop 1).reverse else u

/-- `Normalize(path) = StripExt(Upper(Segment(path)))` (R132). -/
def normalizeName (p : Config.Params) (path : List Byte) : List Byte := stripExt (upper (pathSegment p.pathSeps path))

/-- One iteration of the seed hash at index `i` (R133): multiplier = c >> (i & 3); seed = seed * multiplier + c. -/
def hashStep (i : Nat) (seed : Word) (c : Byte) : Word :=
  seed * (c.setWidth 32 >>> (i &&& 3)) + c.setWidth 32

/-- The seed hash from index `i` on (R133). -/
def hashFrom (i : Nat) (seed : Word) : List Byte → Word
  | [] => seed
  | c :: cs => hashFrom (i + 1) (hashStep i seed c) cs

/-- `SeedFromBytes(n)` (R133). -/
def seedFromBytes (n : List Byte) : Word := hashFrom 0 nameHashStart n

/-- The file key of a generator just seeded (R135): four draws, each byte-swapped, into FKEY0-3. -/
def State.drawFileKey (s : State) : State :=
  let s1 := s.drawNext
  let s2 := s1.drawNext
  let s3 := s2.drawNext
  { s3.drawNext with
      fkey0 := bswap s.drawWord, fkey1 := bswap s1.drawWord, fkey2 := bswap s2.drawWord, fkey3 := bswap s3.drawWord }

/-- The issue check on the name operand (R136). -/
def nameCheck (p : Config.Params) (s : State) : Option ErrCode := require (nameLenLegal p s.nameLen.toNat) .nameLen

/-- NAME_SEED's issue check (R137). -/
def nameSeedCheck (p : Config.Params) (s : State) : Option ErrCode := nameCheck p s

/-- NAME_SEED at completion (R137): SEED ← the hash of the normalised name. -/
def nameSeedEffect (p : Config.Params) (s : State) : State :=
  { s with seed := seedFromBytes (normalizeName p s.nameBytes) }

/-- NAME_SEED (R137). -/
def execNameSeed (s : State) : Host.Outcome State Fault Refusal :=
  command .nameSeed (nameSeedCheck Config.thisHardware) (nameSeedEffect Config.thisHardware) s

/-- NAME_SEED_RAW's issue check (R138). -/
def nameSeedRawCheck (p : Config.Params) (s : State) : Option ErrCode := nameCheck p s

/-- NAME_SEED_RAW at completion (R138): SEED ← the hash of the name as given. -/
def nameSeedRawEffect (s : State) : State := { s with seed := seedFromBytes s.nameBytes }

/-- NAME_SEED_RAW (R138). -/
def execNameSeedRaw (s : State) : Host.Outcome State Fault Refusal :=
  command .nameSeedRaw (nameSeedRawCheck Config.thisHardware) nameSeedRawEffect s

/-- FILE_KEY's issue check (R139). -/
def fileKeyCheck (p : Config.Params) (s : State) : Option ErrCode := nameCheck p s

/-- FILE_KEY at completion (R139): SEED, the generator reseeded with it, four draws into FKEY0-3, PRNG_VALID ← 1,
FKEY_VALID ← 1. -/
def fileKeyEffect (p : Config.Params) (s : State) : State :=
  let v := seedFromBytes (normalizeName p s.nameBytes)
  { ({ s with seed := v }.mtSeed v).drawFileKey with prngValid := true, fkeyValid := true }

/-- FILE_KEY (R139). -/
def execFileKey (s : State) : Host.Outcome State Fault Refusal :=
  command .fileKey (fileKeyCheck Config.thisHardware) (fileKeyEffect Config.thisHardware) s

end Sys2Proof.Machine
end

