-- ==== Sys2Proof/Machine/Feistel.lean ====
section
/-! DEFINITION. The Feistel core (spec/42_feistel.md): the substitution function, the two round functions, key copy,
key XOR, the descrambling chain, and the commands KEY_COPY, KEY_XOR, DESCRAMBLE, FILE_SETUP, BLOCK_ENC, BLOCK_DEC and
SFUNC. The functions take the working keys as lists: `k1` holds K1 from index 0 on, `k2` holds K2. -/

namespace Sys2Proof.Machine

/-- `S(x)` (R150): the low byte indexes table 3, byte 1 table 2, byte 2 table 1, the high byte table 0. -/
def sBox (k2 : List Word) (x : Word) : Word :=
  k2.getD ((x &&& 0xFF).toNat + 0x300) 0
    + (k2.getD (((x >>> 8) &&& 0xFF).toNat + 0x200) 0 ^^^ k2.getD (((x >>> 16) &&& 0xFF).toNat + 0x100) 0)
    + k2.getD ((x >>> 24) &&& 0xFF).toNat 0

/-- One pass of the forward loop (R151): from (v4, v5), with round keys rb, rb+1, rb+2, rb+3. -/
def forwardPass (k1 k2 : List Word) (v : Word × Word) (rb : Nat) : Word × Word :=
  let v1 := v.2 ^^^ k1.getD rb 0
  let v2 := v.1 ^^^ k1.getD (rb + 1) 0 ^^^ sBox k2 v1
  let v3 := v1 ^^^ k1.getD (rb + 2) 0 ^^^ sBox k2 v2
  let v4 := v2 ^^^ k1.getD (rb + 3) 0 ^^^ sBox k2 v3
  let v5 := v3 ^^^ sBox k2 v4
  (v4, v5)

/-- The forward round function F(a, b) (R151). -/
def forward (k1 k2 : List Word) (p : Word × Word) : Word × Word :=
  let v := [0, 4, 8, 12].foldl (forwardPass k1 k2) (p.2, p.1)
  (v.1 ^^^ k1.getD 17 0, v.2 ^^^ k1.getD 16 0)

/-- One round of the reverse loop (R152): from (v2, v3), with the round key 17 - i. -/
def reverseRound (k1 k2 : List Word) (v : Word × Word) (i : Nat) : Word × Word :=
  let v1 := v.1 ^^^ k1.getD (17 - i) 0
  (v.2 ^^^ sBox k2 v1, v1)

/-- The reverse round function R(a, b) (R152). After the loop v3 = v1, so the result is (v3 xor K1[0], v2 xor K1[1]). -/
def reverse (k1 k2 : List Word) (p : Word × Word) : Word × Word :=
  let v := (List.range 16).foldl (reverseRound k1 k2) p
  (v.2 ^^^ k1.getD 0 0, v.1 ^^^ k1.getD 1 0)

/-- Where the descrambling chain stands: the running pair and the keys as overwritten so far (R154, R155). -/
structure Chain where
  pair : Word × Word
  k1 : List Word
  k2 : List Word
  deriving DecidableEq, Repr

/-- One call of the chain's first loop (R154): K1[2n], K1[2n+1] take the next pair. -/
def Chain.fillK1 (c : Chain) (n : Nat) : Chain :=
  let p := forward c.k1 c.k2 c.pair
  { c with pair := p, k1 := (c.k1.set (2 * n) p.1).set (2 * n + 1) p.2 }

/-- One call of the chain's second loop (R154): K2[2n], K2[2n+1] take the next pair. -/
def Chain.fillK2 (c : Chain) (n : Nat) : Chain :=
  let p := forward c.k1 c.k2 c.pair
  { c with pair := p, k2 := (c.k2.set (2 * n) p.1).set (2 * n + 1) p.2 }

/-- `Descramble()` on the working keys (R154, R155): from (0, 0), over the first `len1` words of key1, then the first
`len2` words of key2, every call reading the keys as the earlier calls left them. -/
def descrambleChain (k1 k2 : List Word) (len1 len2 : Nat) : Chain :=
  (List.range (len2 / 2)).foldl Chain.fillK2
    ((List.range (len1 / 2)).foldl Chain.fillK1 { pair := (0, 0), k1 := k1, k2 := k2 })

/-- K1 as the round functions read it: indices 0..17 (R158). -/
def State.roundKeys (s : State) : List Word := s.loadWords k1Base roundKeyWords

/-- K2 as the substitution function reads it: indices 0..0x3FF (R158). -/
def State.sBoxes (s : State) : List Word := s.loadWords k2Base sBoxWords

/-- The working key1 as the chain walks it: at least the 18 words the round functions read. -/
def State.chainK1 (s : State) : List Word := s.loadWords k1Base (max roundKeyWords s.k1CurLen.toNat)

/-- The working key2 as the chain walks it: at least the 1024 words the substitution function reads. -/
def State.chainK2 (s : State) : List Word := s.loadWords k2Base (max sBoxWords s.k2CurLen.toNat)

/-- `KeyXor()` (R153) on words: word i is xored with FKEY[i mod 4]. -/
def xorFileKey (s : State) (ws : List Word) : List Word := ws.mapIdx (fun i w => w ^^^ s.fkey i)

/-- The checks on the key lengths (R159): KEY1_LEN, then KEY2_LEN (spec/60_exceptions.md R226). -/
def keyLenCheck (p : Config.Params) (s : State) : Option ErrCode :=
  (require (key1LenLegal p s.key1Len.toNat) .config).or (require (key2LenLegal p s.key2Len.toNat) .config)

/-- KEY_COPY's issue checks (R159). -/
def keyCopyCheck (p : Config.Params) (s : State) : Option ErrCode := keyLenCheck p s

/-- KEY_COPY at completion (R159): the lengths latched, KS1 and KS2 copied over them, KEYS_COPIED ← 1,
KEYS_READY ← 0, StreamAbort(). -/
def keyCopyEffect (p : Config.Params) (s : State) : State :=
  let s1 := s.storeK1 p (s.loadWords ks1Base s.key1Len.toNat)
  let s2 := s1.storeK2 p (s.loadWords ks2Base s.key2Len.toNat)
  { s2 with k1CurLen := s.key1Len, k2CurLen := s.key2Len, keysCopied := true, keysReady := false }.streamAbort

/-- KEY_COPY (R159). -/
def execKeyCopy (s : State) : Host.Outcome State Fault Refusal :=
  command .keyCopy (keyCopyCheck Config.thisHardware) (keyCopyEffect Config.thisHardware) s

/-- KEY_XOR's issue checks (R160): KEYS_COPIED, then FKEY_VALID, both SEQUENCE. -/
def keyXorCheck (s : State) : Option ErrCode :=
  (require s.keysCopied .sequence).or (require s.fkeyValid .sequence)

/-- KEY_XOR at completion (R160): KeyXor() over K1_CUR_LEN words, KEYS_READY ← 0, StreamAbort(). -/
def keyXorEffect (p : Config.Params) (s : State) : State :=
  { s.storeK1 p (xorFileKey s (s.loadWords k1Base s.k1CurLen.toNat)) with keysReady := false }.streamAbort

/-- KEY_XOR (R160). -/
def execKeyXor (s : State) : Host.Outcome State Fault Refusal :=
  command .keyXor keyXorCheck (keyXorEffect Config.thisHardware) s

/-- DESCRAMBLE's issue check (R161). -/
def descrambleCheck (s : State) : Option ErrCode := require s.keysCopied .sequence

/-- DESCRAMBLE at completion (R161): StreamAbort(), the chain over K1 and K2, its last pair into A and B,
KEYS_READY ← 1. -/
def descrambleEffect (p : Config.Params) (s : State) : State :=
  let c := descrambleChain s.chainK1 s.chainK2 s.k1CurLen.toNat s.k2CurLen.toNat
  let s1 := s.streamAbort.storeK1 p (c.k1.take s.k1CurLen.toNat)
  let s2 := s1.storeK2 p (c.k2.take s.k2CurLen.toNat)
  { s2 with a := c.pair.1, b := c.pair.2, keysReady := true }

/-- DESCRAMBLE (R161). -/
def execDescramble (s : State) : Host.Outcome State Fault Refusal :=
  command .descramble descrambleCheck (descrambleEffect Config.thisHardware) s

/-- FILE_SETUP's issue checks (R162): CONFIG, CONFIG, then NAME_LEN. -/
def fileSetupCheck (p : Config.Params) (s : State) : Option ErrCode := (keyLenCheck p s).or (nameCheck p s)

/-- FILE_SETUP at completion (R162): the effects of KEY_COPY, FILE_KEY, KEY_XOR and DESCRAMBLE, in this order. -/
def fileSetupEffect (p : Config.Params) (s : State) : State :=
  descrambleEffect p (keyXorEffect p (fileKeyEffect p (keyCopyEffect p s)))

/-- FILE_SETUP (R162). -/
def execFileSetup (s : State) : Host.Outcome State Fault Refusal :=
  command .fileSetup (fileSetupCheck Config.thisHardware) (fileSetupEffect Config.thisHardware) s

/-- (A, B) takes a pair (R35). -/
def State.setPair (s : State) (p : Word × Word) : State := { s with a := p.1, b := p.2 }

/-- BLOCK_ENC's issue check (R163). -/
def blockEncCheck (s : State) : Option ErrCode := require s.keysCopied .sequence

/-- BLOCK_ENC at completion (R163): (A, B) ← F(A, B). -/
def blockEncEffect (s : State) : State := s.setPair (forward s.roundKeys s.sBoxes (s.a, s.b))

/-- BLOCK_ENC (R163). -/
def execBlockEnc (s : State) : Host.Outcome State Fault Refusal := command .blockEnc blockEncCheck blockEncEffect s

/-- BLOCK_DEC's issue check (R164). -/
def blockDecCheck (s : State) : Option ErrCode := require s.keysCopied .sequence

/-- BLOCK_DEC at completion (R164): (A, B) ← R(A, B). -/
def blockDecEffect (s : State) : State := s.setPair (reverse s.roundKeys s.sBoxes (s.a, s.b))

/-- BLOCK_DEC (R164). -/
def execBlockDec (s : State) : Host.Outcome State Fault Refusal := command .blockDec blockDecCheck blockDecEffect s

/-- SFUNC's issue check (R165). -/
def sfuncCheck (s : State) : Option ErrCode := require s.keysCopied .sequence

/-- SFUNC at completion (R165): RESULT ← S(ARG0). -/
def sfuncEffect (s : State) : State := { s with result := sBox s.sBoxes s.arg0 }

/-- SFUNC (R165). -/
def execSfunc (s : State) : Host.Outcome State Fault Refusal := command .sfunc sfuncCheck sfuncEffect s

end Sys2Proof.Machine
end

