-- ==== Sys2Proof/Machine/Stream.lean ====
section
/-! DEFINITION. The block-stream controller (spec/43_stream.md): STREAM_BEGIN and STREAM_PAIR. -/

namespace Sys2Proof.Machine

/-- STREAM_BEGIN's issue checks (R194): KEYS_READY (SEQUENCE), then the size (INPUT_SIZE). -/
def streamBeginCheck (s : State) : Option ErrCode :=
  (require s.keysReady .sequence).or (require (sizeOK s.arg0.toNat) .inputSize)

/-- STREAM_BEGIN at completion (R194): PAIRS_LEFT ← ARG0 div 8, PAIR_IDX ← 0, STREAM_ACTIVE, EMIT ← 0. -/
def streamBeginEffect (s : State) : State :=
  { s with
      pairsLeft := s.arg0 / 8, pairIdx := 0, streamActive := activeFlag (s.arg0 / 8), emit := false }

/-- STREAM_BEGIN (R194). -/
def execStreamBegin (s : State) : Host.Outcome State Fault Refusal :=
  command .streamBegin streamBeginCheck streamBeginEffect s

/-- STREAM_PAIR's issue check (R195). -/
def streamPairCheck (s : State) : Option ErrCode := require s.streamActive .sequence

/-- STREAM_PAIR at completion (R195): (A, B) ← R(A, B), EMIT by the pair's index before it is counted, the counters,
STREAM_ACTIVE. -/
def streamPairEffect (s : State) : State :=
  { s.setPair (reverse s.roundKeys s.sBoxes (s.a, s.b)) with
      emit := emitFlag s.pairIdx, pairIdx := s.pairIdx + 1, pairsLeft := s.pairsLeft - 1,
      streamActive := activeFlag (s.pairsLeft - 1) }

/-- STREAM_PAIR (R195). -/
def execStreamPair (s : State) : Host.Outcome State Fault Refusal :=
  command .streamPair streamPairCheck streamPairEffect s

end Sys2Proof.Machine
end

