-- ==== Sys2Proof/Machine/Commands.lean ====
section
/-! DEFINITION. Each command's issue check and completion effect, and its whole rule, for any parameters of
spec/00_scope.md R8. `exec` is the rule at the values of this hardware (`exec_eq` in Laws/Operations.lean). -/

namespace Sys2Proof.Machine

/-- The issue check of each command (spec/60_exceptions.md R223 step 4). -/
def issueCheck (p : Config.Params) : Instr → State → Option ErrCode
  | .nop => nopCheck
  | .errClear => errClearCheck
  | .prngSeed => prngSeedCheck
  | .prngNext => prngNextCheck
  | .nameSeed => nameSeedCheck p
  | .nameSeedRaw => nameSeedRawCheck p
  | .fileKey => fileKeyCheck p
  | .keyCopy => keyCopyCheck p
  | .keyXor => keyXorCheck
  | .descramble => descrambleCheck
  | .fileSetup => fileSetupCheck p
  | .blockEnc => blockEncCheck
  | .blockDec => blockDecCheck
  | .sfunc => sfuncCheck
  | .streamBegin => streamBeginCheck
  | .streamPair => streamPairCheck

/-- The effect of each command at its completion step, before INFLIGHT and BUSY are cleared (R225). -/
def completionEffect (p : Config.Params) : Instr → State → State
  | .nop => nopEffect
  | .errClear => errClearEffect
  | .prngSeed => prngSeedEffect
  | .prngNext => prngNextEffect
  | .nameSeed => nameSeedEffect p
  | .nameSeedRaw => nameSeedRawEffect
  | .fileKey => fileKeyEffect p
  | .keyCopy => keyCopyEffect p
  | .keyXor => keyXorEffect p
  | .descramble => descrambleEffect p
  | .fileSetup => fileSetupEffect p
  | .blockEnc => blockEncEffect
  | .blockDec => blockDecEffect
  | .sfunc => sfuncEffect
  | .streamBegin => streamBeginEffect
  | .streamPair => streamPairEffect

/-- A command's meaning in a block with the parameters `p` (R8). -/
def execFor (p : Config.Params) (i : Instr) (s : State) : Host.Outcome State Fault Refusal :=
  command i (issueCheck p i) (completionEffect p i) s

end Sys2Proof.Machine
end

