-- ==== Sys2Proof/WellFormed.lean ====
section
/-! DEFINITION. The checks on syntax. A command has no operand field (spec/30_encoding.md R93), so every term of `Instr`
is well formed; what can be ill formed is a host access (spec/20_memory.md R60-R62,
spec/93_implementation_defined.md U5). -/

namespace Sys2Proof

/-- Every term of `Instr` is one of the sixteen legal commands (R93, R94): there is no operand to check. -/
def Instr.wellFormed (_ : Instr) : Bool := true

/-- What is wrong with a host access (U5). -/
inductive AccessProblem where
  /-- Only 32-bit accesses exist (R62). -/
  | width
  /-- The address is at or above 2^18 (R60, U5). -/
  | range
  /-- `addr[1:0]` is not 0 (R61). -/
  | misaligned
  deriving DecidableEq, Repr

/-- The first problem of an access of `bytes` bytes at `addr`, if it has one. -/
def accessProblem (addr bytes : Nat) : Option AccessProblem :=
  if bytes ≠ 4 then some .width
  else if 2 ^ Config.addrWidth ≤ addr then some .range
  else if addr % 4 ≠ 0 then some .misaligned
  else none

/-- `accessProblem` of a host access. -/
def HostAccess.problem : HostAccess → Option AccessProblem
  | .read addr bytes => accessProblem addr bytes
  | .write addr bytes _ => accessProblem addr bytes

/-- The host interface has this access (R60, R61, R62). -/
def HostAccess.wellFormed (x : HostAccess) : Bool := x.problem.isNone

/-- Every access an event holds is one the interface has. -/
def Event.wellFormed : Event → Bool
  | .host x => x.wellFormed
  | .check => true
  | .wait _ => true
  | .collect => true
  | .append => true
  | .engine => true
  | .reset => true

end Sys2Proof
end

