-- ==== Sys2Proof/Machine/Bus.lean ====
section
/-! DEFINITION. The events: host reads and writes (spec/20_memory.md R60-R73), the command write (spec/60_exceptions.md
R223), the engine's completion step (R225), the reset event (spec/70_reset_and_hazards.md R250) and what a host program
does between its accesses (spec/30_encoding.md R97, R98; spec/43_stream.md R197). Each takes the parameters of
spec/00_scope.md R8 that it needs, and the meaning of a command as `run`. -/

namespace Sys2Proof.Machine

/-- A host read of an aligned word address (R64-R73). No read changes a register or an array (R75); the word returned
is recorded in `reads`. -/
def State.hostRead (s : State) (p : Config.Params) (addr : Nat) : State :=
  if s.busy && Target.commandWritten (decodeAddr p addr) then s.answerFree
  else s.answer (s.targetValue p (decodeAddr p addr))

/-- A host write while BUSY = 1 (R72): dropped, and BUSY recorded if ERR was 0. -/
def State.dropWrite (s : State) : State := s.raiseErr .busy

/-- A write of `w` to CMD while BUSY = 0 (R223 steps 2 to 5). A word that is no command is dropped while ERR ≠ 0 and
raises ILLEGAL else (R92); a command goes to its own meaning. -/
def issueWord (run : Instr → State → Host.Outcome State Fault Refusal) (w : Word) (s : State) :
    Host.Outcome State Fault Refusal :=
  match decode w with
  | .ok i => run i s
  | .error _ => if s.err ≠ 0#4 then .next s else .next (s.raiseErr .illegal)

/-- A host write to an aligned word address (R56, R64-R72, R223). -/
def hostWrite (p : Config.Params) (run : Instr → State → Host.Outcome State Fault Refusal) (addr : Nat) (v : Word)
    (s : State) : Host.Outcome State Fault Refusal :=
  if s.busy then .next s.dropWrite
  else if decodeAddr p addr = .reg .cmd then issueWord run v s
  else .next (s.writeTarget p (decodeAddr p addr) v)

/-- The refusal of an access the interface does not have (R60-R62, U5). -/
def AccessProblem.refusal : AccessProblem → Refusal
  | .width => .unsupportedWidth
  | .range => .addressOutOfRange
  | .misaligned => .misalignedAccess

/-- One host access. -/
def hostStep (p : Config.Params) (run : Instr → State → Host.Outcome State Fault Refusal) (x : HostAccess)
    (s : State) : Host.Outcome State Fault Refusal :=
  match x.problem with
  | some e => .refused (AccessProblem.refusal e)
  | none =>
    match x with
    | .read addr _ => .next (s.hostRead p addr)
    | .write addr _ v => hostWrite p run addr v s

/-- The engine's turn (R225): the command in flight completes; with none in flight nothing happens. -/
def engineStep (run : Instr → State → Host.Outcome State Fault Refusal) (s : State) :
    Host.Outcome State Fault Refusal :=
  match s.inflight with
  | some i => run i s
  | none => .next s

/-- The event is the host's. -/
def Event.isHosts : Event → Bool
  | .host _ => true
  | .check => true
  | .wait _ => true
  | .collect => true
  | .append => true
  | .engine => false
  | .reset => false

/-- A host read of STATUS. -/
def State.readStatus (s : State) (p : Config.Params) : State := s.hostRead p (Reg.offset .status)

/-- The host program's `check` (R98): a read of STATUS, and if STATUS.ERR ≠ 0 the host's later events do not happen. -/
def State.hostCheck (s : State) (p : Config.Params) : State :=
  if s.err = 0#4 then s.readStatus p
  else (s.readStatus p).setAgenda (s.agenda.filter (fun e => !Event.isHosts e))

/-- One step of the host program's `wait` (R97, R99). A read of STATUS that finds BUSY = 0 ends it. While BUSY = 1 the
host reads STATUS and goes on waiting; after `polls` such reads the engine has its turn (the open latency of R262; log
entry 13). -/
def hostWait (p : Config.Params) (run : Instr → State → Host.Outcome State Fault Refusal) (polls : Nat) (s : State) :
    Host.Outcome State Fault Refusal :=
  if s.busy then
    match polls with
    | 0 => engineStep run (s.setAgenda (.wait 0 :: s.agenda))
    | n + 1 => .next ((s.readStatus p).setAgenda (.wait n :: s.agenda))
  else .next (s.readStatus p)

/-- The host's output step for a pair (R197 step 5): a read of STATUS, and if EMIT = 1 reads of A and of B come next,
and then the append. -/
def State.hostCollect (s : State) (p : Config.Params) : State :=
  if s.emit then
    (s.readStatus p).setAgenda
      (.host (.read (Reg.offset .a) 4) :: .host (.read (Reg.offset .b) 4) :: .append :: s.agenda)
  else s.readStatus p

/-- The eight bytes the host writes for an emitted pair: A then B, each little-endian (R74, R199). -/
def pairBytes (x : Word × Word) : List Byte := bytesOfWord x.1 ++ bytesOfWord x.2

/-- The host appends the last two words read to its output, the earlier one first (R199). With fewer than two words
read, nothing is appended: no `collect` leads there. -/
def State.hostAppend (s : State) : State :=
  match s.reads with
  | y :: x :: _ => { s with output := s.output ++ pairBytes (x, y) }
  | _ => s

/-- One event of the single order of R76, on the state whose agenda holds the events after it. -/
def eventStep (p : Config.Params) (run : Instr → State → Host.Outcome State Fault Refusal) (e : Event) (s : State) :
    Host.Outcome State Fault Refusal :=
  match e with
  | .host x => hostStep p run x s
  | .check => .next (s.hostCheck p)
  | .wait polls => hostWait p run polls s
  | .collect => .next (s.hostCollect p)
  | .append => .next s.hostAppend
  | .engine => engineStep run s
  | .reset => .next s.onReset

/-- The next event of the agenda. With no event to come the engine has its turn: a command in flight completes (the
weak fairness of R262), else the block does nothing (R253). Log entry 1. -/
def nextEvent (p : Config.Params) (run : Instr → State → Host.Outcome State Fault Refusal) (s : State) :
    Host.Outcome State Fault Refusal :=
  match s.agenda with
  | [] => engineStep run s
  | e :: es => eventStep p run e (s.setAgenda es)

/-- A write of `w` to CMD (R90). -/
def commandWrite (w : Word) : Event := .host (.write (Reg.offset .cmd) 4 w)

end Sys2Proof.Machine
end

