-- ==== Sys2Proof/Machine/Dispatch.lean ====
section
/-! DEFINITION. The dispatch of the sixteen commands (spec/30_encoding.md R94) to their meanings. -/

namespace Sys2Proof.Machine

/-- A command's whole rule: its issue when it is not in flight, its completion step when it is (log entry 3). -/
def exec (i : Instr) (s : State) : Host.Outcome State Fault Refusal :=
  match i with
  | .nop => Sys2Proof.Machine.execNop s
  | .errClear => Sys2Proof.Machine.execErrClear s
  | .prngSeed => Sys2Proof.Machine.execPrngSeed s
  | .prngNext => Sys2Proof.Machine.execPrngNext s
  | .nameSeed => Sys2Proof.Machine.execNameSeed s
  | .nameSeedRaw => Sys2Proof.Machine.execNameSeedRaw s
  | .fileKey => Sys2Proof.Machine.execFileKey s
  | .keyCopy => Sys2Proof.Machine.execKeyCopy s
  | .keyXor => Sys2Proof.Machine.execKeyXor s
  | .descramble => Sys2Proof.Machine.execDescramble s
  | .fileSetup => Sys2Proof.Machine.execFileSetup s
  | .blockEnc => Sys2Proof.Machine.execBlockEnc s
  | .blockDec => Sys2Proof.Machine.execBlockDec s
  | .sfunc => Sys2Proof.Machine.execSfunc s
  | .streamBegin => Sys2Proof.Machine.execStreamBegin s
  | .streamPair => Sys2Proof.Machine.execStreamPair s

end Sys2Proof.Machine
end

