-- ==== Sys2Proof/Machine/Step.lean ====
section
/-! DEFINITION. One step of the machine: the next event (spec/20_memory.md R76), and where a command word is put so
that the next step issues it. -/

namespace Sys2Proof.Machine

/-- One step of a block with the parameters `p` (spec/00_scope.md R8). -/
def stepFor (p : Config.Params) (s : State) : Host.Outcome State Fault Refusal := nextEvent p (execFor p) s

/-- One step of this hardware: the next event of the agenda, or the engine's turn if there is none. It is `stepFor` of
`Config.thisHardware` (`step_eq_stepFor` in Laws/Operations.lean), the commands run through `exec`. -/
def step (s : State) : Host.Outcome State Fault Refusal := nextEvent Config.thisHardware exec s

/-- `s` with the command word placed where the block takes its next command from: as the host's next bus write, to CMD
(R78, R90; log entry 2). Nothing else changes. -/
def State.withFetchWord (s : State) (nbits w : Nat) : State :=
  s.setAgenda (commandWrite (tableWord nbits w) :: s.agenda)

end Sys2Proof.Machine
end

