-- ==== Sys2Proof/Machine/HostProgram.lean ====
section
/-! DEFINITION. The host's side: what each statement of a host program puts on the bus (spec/30_encoding.md R97, R98),
the boot and per-file orders (spec/70_reset_and_hazards.md R254, spec/43_stream.md R197), and the conversions between
file bytes and words (spec/20_memory.md R66, R67, R74; spec/43_stream.md R192, R198, R199). Reading and writing the
files themselves is out of scope (spec/00_scope.md R6). -/

namespace Sys2Proof.Machine

/-- The byte address an `ADDR_OR_REG` stands for (R97, resolved by R22 and R63). -/
def HostOperand.address : HostOperand → Nat
  | .reg r => Reg.offset r
  | .name q => nameBase + 4 * q
  | .ks1 i => elementAddr ks1Base i
  | .ks2 i => elementAddr ks2Base i
  | .k1 i => elementAddr k1Base i
  | .k2 i => elementAddr k2Base i
  | .mt i => elementAddr mtBase i
  | .addr n => n

/-- MemWrite(addr, 4, v) (R60). -/
def writeEvent (addr : Nat) (v : Word) : Event := .host (.write addr 4 v)

/-- MemRead(addr, 4) (R60). -/
def readEvent (addr : Nat) : Event := .host (.read addr 4)

/-- The bytes of a word to be, missing bytes 0 (R98). -/
def packBytes : List Byte → Word
  | [] => 0
  | [b0] => wordOfBytes b0 0 0 0
  | [b0, b1] => wordOfBytes b0 b1 0 0
  | [b0, b1, b2] => wordOfBytes b0 b1 b2 0
  | b0 :: b1 :: b2 :: b3 :: _ => wordOfBytes b0 b1 b2 b3

/-- Writes of words to consecutive word addresses. -/
def writeRun (base : Nat) (ws : List Word) : List Event := ws.mapIdx (fun i w => writeEvent (base + 4 * i) w)

/-- The words of a name: word q from bytes 4q to 4q+3 (R98). -/
def nameWords (str : List Byte) : List Word :=
  (List.range ((str.length + 3) / 4)).map (fun q => packBytes ((str.drop (4 * q)).take 4))

/-- The events of a statement, in order (R97, R98, and R197 for `collect`). A `wait` is one event, which reads STATUS
until BUSY = 0 (`hostWait`). A count is written modulo 2^32, as much as the bus carries (log entry 23). -/
def HostStmt.events : HostStmt → List Event
  | .wr x v => [writeEvent (HostOperand.address x) v]
  | .rd x => [readEvent (HostOperand.address x)]
  | .cmd i => [commandWrite (encode i)]
  | .wait polls => [.wait polls]
  | .run i polls => [commandWrite (encode i), .wait polls]
  | .name str => writeRun nameBase (nameWords str) ++ [writeEvent (Reg.offset .nameLen) (BitVec.ofNat 32 str.length)]
  | .loadkey1 ws => writeRun ks1Base ws ++ [writeEvent (Reg.offset .key1Len) (BitVec.ofNat 32 ws.length)]
  | .loadkey2 ws => writeRun ks2Base ws ++ [writeEvent (Reg.offset .key2Len) (BitVec.ofNat 32 ws.length)]
  | .pair x y => [writeEvent (Reg.offset .a) x, writeEvent (Reg.offset .b) y]
  | .check => [.check]
  | .collect => [.collect]

/-- The events of a host program. -/
def programEvents (p : List HostStmt) : List Event := p.flatMap HostStmt.events

/-- The source's errors that the host detects (spec/60_exceptions.md R221). IOError belongs to file I/O, out of scope. -/
inductive HostError where
  /-- ConfigurationError: a key file's length is not a multiple of 4, or it has more words than the array (R67). -/
  | configuration
  /-- InputSizeError: the encrypted file's length is not a multiple of 8 (R192). -/
  | inputSize
  deriving DecidableEq, Repr

/-- The words of a file: word i is its bytes 4i to 4i+3, little-endian (R66, R198). -/
def fileWords (file : List Byte) : List Word :=
  (List.range (file.length / 4)).map (fun i => packBytes ((file.drop (4 * i)).take 4))

/-- The words of a key file, or the host's ConfigurationError (R66, R67). -/
def keyFileWords (capacity : Nat) (file : List Byte) : Except HostError (List Word) :=
  if file.length % 4 ≠ 0 ∨ capacity < file.length / 4 then .error .configuration else .ok (fileWords file)

/-- Consecutive pairs of words in file order (R198). -/
def pairsOf : List Word → List (Word × Word)
  | x :: y :: rest => (x, y) :: pairsOf rest
  | _ => []

/-- The pairs of an encrypted file, or the source's InputSizeError (R192, R198). -/
def inputPairs (file : List Byte) : Except HostError (List (Word × Word)) :=
  if sizeOK file.length then .ok (pairsOf (fileWords file)) else .error .inputSize

/-- The plaintext file of a list of decrypted pairs in file order: the first SKIP_PAIRS are dropped (R193, R196).
It is what the `collect` statements of `fileStmts` append to `State.output`, said by position. -/
def outputBytes (ps : List (Word × Word)) : List Byte := (ps.drop skipPairs).flatMap pairBytes

/-- Loading the key material, once for any number of files (R254 step 1). -/
def loadKeys (key1 key2 : List Word) : List HostStmt := [.loadkey1 key1, .loadkey2 key2]

/-- A command and the check of STATUS.ERR that R228 asks of the host after every `wait`. -/
def checked (i : Instr) (polls : Nat) : List HostStmt := [.run i polls, .check]

/-- The per-file setup as one command (R197 step 3). -/
def setupWhole (polls : Nat) : List HostStmt := checked .fileSetup polls

/-- The per-file setup as its four parts (R197 step 3, R254 step 3). DESIGN CHOICE (log entry 25): the four waits have
one and the same number of busy polls, where R262 lets each command's latency differ. -/
def setupParts (polls : Nat) : List HostStmt :=
  checked .keyCopy polls ++ checked .fileKey polls ++ checked .keyXor polls ++ checked .descramble polls

/-- The statements for one pair (R197 step 5): the pair into A and B, STREAM_PAIR, the check of ERR, and the append of
A then B to the output if EMIT = 1. -/
def pairStmts (polls : Nat) (x : Word × Word) : List HostStmt :=
  [.pair x.1 x.2] ++ checked .streamPair polls ++ [.collect]

/-- The statements for one file (R197 steps 2 to 5, R254 steps 2 to 4): the path, the setup (`setupWhole` or
`setupParts`), the byte length and STREAM_BEGIN, then the pairs in file order, every command followed by its check.
Step 1 is `loadKeys`, and closing the output (step 6) is file output (spec/00_scope.md R6). DESIGN CHOICE (log entry 23):
the spec says nothing of a file of 2^32 bytes or more, whose length ARG0 cannot hold; its length is written modulo 2^32,
so the stream opens for a shorter file. DESIGN CHOICE (log entry 25): STREAM_BEGIN and every STREAM_PAIR of the file wait
through one and the same number of busy polls, where R262 leaves each command's latency open and lets it differ. -/
def fileStmts (setup : List HostStmt) (polls : Nat) (path : List Byte) (length : Nat) (ps : List (Word × Word)) :
    List HostStmt :=
  [.name path] ++ setup ++ [.wr (.reg .arg0) (BitVec.ofNat 32 length)] ++ checked .streamBegin polls
    ++ ps.flatMap (pairStmts polls)

/-- The statements that decrypt a file given by its path and its bytes (R197, R198). The block checks the length
(R192). Length and polls are as in `fileStmts` (log entries 23 and 25). -/
def decryptStmts (setup : List HostStmt) (polls : Nat) (path file : List Byte) : List HostStmt :=
  fileStmts setup polls path file.length (pairsOf (fileWords file))

end Sys2Proof.Machine
end

