-- ==== Sys2Proof/Safety.lean ====
section
/-! DEFINITION. What the statements about the machine are said in: the conditions of each command, the invariant of
spec/10_state.md R53, and reachability. -/

namespace Sys2Proof.Machine

/-- No command is in flight (R51: INFLIGHT is none exactly when BUSY = 0). -/
def Idle (s : State) : Prop := s.busy = false ∧ s.inflight = none

/-- Key lengths the spec calls legal (spec/10_state.md R38), in its own numbers. -/
def LegalLengths (n1 n2 : Nat) : Prop :=
  (n1 % 2 = 0 ∧ 18 ≤ n1 ∧ n1 ≤ 1024) ∧ (n2 % 2 = 0 ∧ 1024 ≤ n2 ∧ n2 ≤ 4096)

/-- The conditions under which each command is accepted, in the spec's own terms (R116, R117, R136-R139, R159-R165,
R194, R195, R210, R211). -/
def IssueConditions (i : Instr) (s : State) : Prop :=
  match i with
  | .nop => True
  | .errClear => True
  | .prngSeed => True
  | .prngNext => s.prngValid = true
  | .nameSeed => s.nameLen.toNat ≤ 256
  | .nameSeedRaw => s.nameLen.toNat ≤ 256
  | .fileKey => s.nameLen.toNat ≤ 256
  | .keyCopy => LegalLengths s.key1Len.toNat s.key2Len.toNat
  | .keyXor => s.keysCopied = true ∧ s.fkeyValid = true
  | .descramble => s.keysCopied = true
  | .fileSetup => LegalLengths s.key1Len.toNat s.key2Len.toNat ∧ s.nameLen.toNat ≤ 256
  | .blockEnc => s.keysCopied = true
  | .blockDec => s.keysCopied = true
  | .sfunc => s.keysCopied = true
  | .streamBegin => s.keysReady = true ∧ s.arg0.toNat % 8 = 0
  | .streamPair => s.streamActive = true

/-- Every byte of the arrays outside the `n` bytes at `lo` reads the same in both states. -/
def SameOutside (s t : State) (lo n : Nat) : Prop := ∀ x, (x < lo ∨ lo + n ≤ x) → t.byte x = s.byte x

/-- The first `size` words of an array of which the first `n` hold `new` and the others still `old`: an array as the
descrambling chain finds it half-way (spec/42_feistel.md R155). -/
def halfOverwritten (size n : Nat) (old new : Nat → Word) : List Word :=
  (List.range size).map (fun i => if i < n then new i else old i)

/-- K1[0..17] as a list (R158). -/
def roundKeysOf (s : State) : List Word := (List.range 18).map s.k1Word

/-- K2[0..0x3FF] as a list (R158). -/
def sBoxesOf (s : State) : List Word := (List.range 1024).map s.k2Word

/-- A bus byte address that belongs to an element of an array (spec/20_memory.md R63). -/
def inArrays (addr : Nat) : Bool :=
  (nameBase ≤ addr && addr < nameBase + Config.thisHardware.nameMax)
    || (ks1Base ≤ addr && addr < ks1Base + 4 * Config.thisHardware.k1Max)
    || (k1Base ≤ addr && addr < k1Base + 4 * Config.thisHardware.k1Max)
    || (ks2Base ≤ addr && addr < ks2Base + 4 * Config.thisHardware.k2Max)
    || (k2Base ≤ addr && addr < k2Base + 4 * Config.thisHardware.k2Max)
    || (mtBase ≤ addr && addr < mtBase + 4 * mtWords)

/-- The invariant of R53 ("Invariants that hold in every state reachable from reset"), with what it rests on: the
command in flight has passed its issue checks (R223), the stream counters stay within R42's bound, and the arrays keep
their canonical form and their bounds. -/
structure Inv (s : State) : Prop where
  /-- STATUS.BUSY = 1 if and only if INFLIGHT ≠ none. -/
  busy_iff_inflight : s.busy = true ↔ s.inflight ≠ none
  /-- STATUS.STREAM_ACTIVE = 1 if and only if PAIRS_LEFT ≠ 0. -/
  active_iff_pairsLeft : s.streamActive = true ↔ s.pairsLeft ≠ 0#32
  /-- STATUS.KEYS_READY = 1 implies STATUS.KEYS_COPIED = 1. -/
  ready_copied : s.keysReady = true → s.keysCopied = true
  /-- STATUS.STREAM_ACTIVE = 1 implies STATUS.KEYS_READY = 1. -/
  active_ready : s.streamActive = true → s.keysReady = true
  /-- STATUS.KEYS_COPIED = 1 implies that the latched lengths are legal. -/
  copied_lens : s.keysCopied = true → key1LenLegal Config.thisHardware s.k1CurLen.toNat = true ∧ key2LenLegal Config.thisHardware s.k2CurLen.toNat = true
  /-- MTI < 624. -/
  mti_lt : s.mti.toNat < 624
  /-- STATUS.ERR ≤ 7. -/
  err_le : s.err.toNat ≤ 7
  /-- The command in flight has passed its issue checks. -/
  inflight_checked : ∀ i, s.inflight = some i → issueCheck Config.thisHardware i s = none
  /-- PAIR_IDX and PAIRS_LEFT together stay within the largest stream's pair count (R42). -/
  pairs_bound : s.pairIdx.toNat + s.pairsLeft.toNat ≤ 0x1FFFFFFF
  /-- The arrays' list is in canonical form. -/
  mem_wf : Memory.wf s.mem
  /-- Every byte the arrays list belongs to an element of an array. -/
  mem_inArrays : ∀ c ∈ s.mem, inArrays c.1 = true

/-- The states that a run from reset reaches, whatever the outside does. -/
inductive Reachable : State → Prop where
  /-- Reset, with any events to come. -/
  | start (es : List Event) : Reachable (State.reset.setAgenda es)
  /-- One step. -/
  | step {s t : State} (h : Reachable s) (hs : step s = .next t) : Reachable t

end Sys2Proof.Machine
end

