-- ==== Sys2Proof/Certificates/Slice0/Obligations.lean ====
section
/-! DEFINITION. The statements about the bbtucrypt CORE, each a `Prop` under `Obligations`. A command is in flight when
INFLIGHT holds it; `exec` of it is then its completion step (spec/60_exceptions.md R225), and its issue (R223) when
nothing is in flight. -/

open Sys2Proof Sys2Proof.Machine

/-! ### Encoding -/

/-- Decoding the word of each command gives the command, and a word that decodes to a command is its word: no bit of a
command word is dropped (R90, R91, R94). -/
def Obligations.DecodeAndEncodeAreInverse : Prop :=
  (∀ i : Instr, i.wellFormed = true → decode (encode i) = .ok i) ∧
    ∀ (w : Word) (i : Instr), decode w = .ok i → w = encode i

/-- R91: a word is a legal command exactly when RSV = 0 and OPC is one of the sixteen values; equivalently, when it is
one of the sixteen words. -/
def Obligations.LegalWordsAreTheSixteen : Prop :=
  ∀ w : Word,
    ((∃ i, decode w = .ok i) ↔
      w.extractLsb' 8 24 = 0 ∧
        w.extractLsb' 0 8 ∈ ([0x00, 0x01, 0x10, 0x11, 0x20, 0x21, 0x22, 0x30, 0x31, 0x32, 0x33, 0x34, 0x35, 0x36, 0x40,
          0x41] : List Byte)) ∧
    ((∃ i, decode w = .ok i) ↔
      w ∈ ([0x00000000, 0x00000001, 0x00000010, 0x00000011, 0x00000020, 0x00000021, 0x00000022, 0x00000030, 0x00000031,
        0x00000032, 0x00000033, 0x00000034, 0x00000035, 0x00000036, 0x00000040, 0x00000041] : List Word))

/-- One word of each unit's range decodes to its command, and the two kinds of illegal word are rejected (R92, R94,
R99). -/
def Obligations.SampleWordsDecode : Prop :=
  decode 0x00000001 = .ok .errClear ∧ decode 0x00000011 = .ok .prngNext ∧ decode 0x00000022 = .ok .fileKey ∧
    decode 0x00000032 = .ok .descramble ∧ decode 0x00000041 = .ok .streamPair ∧
    decode 0x00000111 = .error .reservedNotZero ∧ decode 0x00000002 = .error .unknownOpcode

/-! ### A step runs the decoded command -/

/-- A write to CMD of a word that decodes to a command runs that command's meaning on the state after the event
(R223), and `withFetchWord` places exactly such a write. -/
def Obligations.StepRunsTheCommandWritten : Prop :=
  ∀ (s : State) (es : List Event) (w : Word) (i : Instr),
    s.busy = false → decode w = .ok i →
      step (s.setAgenda (.host (.write 0x00000 4 w) :: es)) = exec i (s.setAgenda es) ∧
      step (s.withFetchWord 32 w.toNat) = exec i s

/-- The engine's turn runs the meaning of the command in flight (R225), whether the turn is the next event or there is
no event to come; with no command in flight and no event to come nothing happens (R253). That the engine has its
turn when no event is to come is the model's choice (log entry 1; R262 gives weak fairness only). -/
def Obligations.EngineTurnRunsTheCommandInFlight : Prop :=
  ∀ (s : State) (es : List Event) (i : Instr),
    (s.inflight = some i → step (s.setAgenda (.engine :: es)) = exec i (s.setAgenda es)) ∧
    (s.inflight = some i → step (s.setAgenda []) = exec i (s.setAgenda [])) ∧
    (s.inflight = none → step (s.setAgenda []) = .next (s.setAgenda []))

/-! ### Issue (R223, R224, R226, R227) -/

/-- R223 step 5: while nothing is in flight and ERR is 0 (or the command is ERR_CLEAR), a command whose conditions
hold becomes the command in flight, and nothing else changes. -/
def Obligations.AcceptedCommandGoesInFlight : Prop :=
  ∀ (i : Instr) (s : State), Idle s → (s.err = 0#4 ∨ i = .errClear) → IssueConditions i s →
    exec i s = .next { s with inflight := some i, busy := true }

/-- A command whose conditions hold, placed as the host's next write with nothing to come after it, is accepted by one
step and completed by the next, which leaves the block idle (R223, R225; that the engine moves when nothing else
is to come is the weak fairness of R262 as log entry 1 models it). -/
def Obligations.AcceptedCommandCompletesInTwoSteps : Prop :=
  ∀ (i : Instr) (s : State), Idle s → s.agenda = [] → (s.err = 0#4 ∨ i = .errClear) → IssueConditions i s →
    ∃ t, step (s.withFetchWord 32 (encode i).toNat) = .next (s.accept i) ∧ step (s.accept i) = .next t ∧ Idle t

/-- R92: a word with RSV ≠ 0 or an OPC not in the map raises ILLEGAL (code 3) and starts nothing. -/
def Obligations.IllegalWordRaisesIllegal : Prop :=
  ∀ (s : State) (es : List Event) (w : Word), s.busy = false → s.err = 0#4 →
    (w.extractLsb' 8 24 ≠ 0 ∨
      w.extractLsb' 0 8 ∉ ([0x00, 0x01, 0x10, 0x11, 0x20, 0x21, 0x22, 0x30, 0x31, 0x32, 0x33, 0x34, 0x35, 0x36, 0x40,
        0x41] : List Byte)) →
    step (s.setAgenda (.host (.write 0x00000 4 w) :: es)) = .next { s with agenda := es, err := 3 }

/-- A command whose required earlier step has not happened records NOT_SEEDED (code 4, PRNG_NEXT) or SEQUENCE (code 5,
the others; STREAM_BEGIN whatever its size is) and changes nothing else (R117, R160, R161, R163-R165, R194, R195,
R224, R226). -/
def Obligations.MissingEarlierStepIsRecorded : Prop :=
  ∀ (i : Instr) (s : State), Idle s → s.err = 0#4 →
    (i = .prngNext → s.prngValid = false → exec i s = .next { s with err := 4 }) ∧
    ((i = .keyXor ∧ (s.keysCopied = false ∨ s.fkeyValid = false)) ∨
        (i ∈ [Instr.descramble, .blockEnc, .blockDec, .sfunc] ∧ s.keysCopied = false) ∨
        (i = .streamBegin ∧ s.keysReady = false) ∨ (i = .streamPair ∧ s.streamActive = false) →
      exec i s = .next { s with err := 5 })

/-- A command with a bad operand records its code and changes nothing else: CONFIG (1) for KEY_COPY and FILE_SETUP
with an illegal key length, whatever NAME_LEN is; NAME_LEN (7) for a name command with NAME_LEN > 256, FILE_SETUP
only when its key lengths are legal; INPUT_SIZE (2) for STREAM_BEGIN on descrambled keys with a byte length that
is no multiple of 8 (R136, R159, R162, R192, R194, R224, R226). -/
def Obligations.BadOperandIsRecorded : Prop :=
  ∀ (i : Instr) (s : State), Idle s → s.err = 0#4 →
    (i ∈ [Instr.keyCopy, .fileSetup] → ¬ LegalLengths s.key1Len.toNat s.key2Len.toNat →
      exec i s = .next { s with err := 1 }) ∧
    (256 < s.nameLen.toNat →
      (i ∈ [Instr.nameSeed, .nameSeedRaw, .fileKey] ∨
        (i = .fileSetup ∧ LegalLengths s.key1Len.toNat s.key2Len.toNat)) →
      exec i s = .next { s with err := 7 }) ∧
    (i = .streamBegin → s.keysReady = true → s.arg0.toNat % 8 ≠ 0 → exec i s = .next { s with err := 2 })

/-- R227, R223 step 2: while ERR ≠ 0 every word written to CMD other than ERR_CLEAR's is dropped with no effect. -/
def Obligations.StickyErrorDropsEveryOtherWord : Prop :=
  ∀ (s : State) (es : List Event) (w : Word), Idle s → s.err ≠ 0#4 → w ≠ 0x00000001 →
    step (s.setAgenda (.host (.write 0x00000 4 w) :: es)) = .next (s.setAgenda es)

/-- R72: while BUSY = 1 every host write, to any address, is dropped: no register or array changes, and ERR becomes 6
if it was 0. -/
def Obligations.BusyDropsEveryHostWrite : Prop :=
  ∀ (s : State) (es : List Event) (addr : Nat) (v : Word), s.busy = true → addr % 4 = 0 → addr < 2 ^ 18 →
    step (s.setAgenda (.host (.write addr 4 v) :: es)) =
      .next { s with agenda := es, err := if s.err = 0#4 then 6 else s.err }

/-! ### Invariants -/

/-- Every step keeps the invariant, from every state that has it, whatever the events are (R53). -/
def Obligations.EveryStepKeepsTheInvariant : Prop :=
  ∀ s t : State, Inv s → step s = .next t → Inv t

/-- The state after reset has the invariant. -/
def Obligations.ResetStateHasTheInvariant : Prop := ∀ es : List Event, Inv (State.reset.setAgenda es)

/-- R53, its six invariants in every state reachable from reset (the spec's own inference from its command rules). -/
def Obligations.ReachableStatesKeepTheFlagsConsistent : Prop :=
  ∀ s : State, Reachable s →
    (s.busy = true ↔ s.inflight ≠ none) ∧
    (s.streamActive = true ↔ s.pairsLeft ≠ 0#32) ∧
    (s.keysReady = true → s.keysCopied = true) ∧
    (s.streamActive = true → s.keysReady = true) ∧
    (s.keysCopied = true → LegalLengths s.k1CurLen.toNat s.k2CurLen.toNat) ∧
    s.mti.toNat < 624 ∧ s.err.toNat ≤ 7 ∧ s.statusWord.getLsbD 7 = false ∧ s.statusWord.extractLsb' 12 20 = 0

/-- PRNG_VALID, FKEY_VALID and KEYS_COPIED are never cleared except by reset (R26, R27, R28). -/
def Obligations.ValidFlagsAreClearedOnlyByReset : Prop :=
  ∀ s t : State, (∀ es, s.agenda ≠ .reset :: es) → step s = .next t →
    (s.prngValid = true → t.prngValid = true) ∧ (s.fkeyValid = true → t.fkeyValid = true) ∧
    (s.keysCopied = true → t.keysCopied = true)

/-- A step stops only on a host access that the interface does not have (R61, R62, U5). -/
def Obligations.StepStopsOnlyOnAnAbsentAccess : Prop :=
  ∀ s : State, (∃ t, step s = .next t) ∨ ∃ x es, s.agenda = .host x :: es ∧ x.wellFormed = false

/-- A completion step cannot fail and ends with no command in flight and BUSY = 0, for every command (R225). -/
def Obligations.CompletionCannotFail : Prop :=
  ∀ (i : Instr) (s : State), s.inflight = some i →
    ∃ t, exec i s = .next t ∧ t.inflight = none ∧ t.busy = false

/-- What a command computes does not depend on the events to come, on what the host has read and written out, or on
the count of free words: those fields are the model's own (log entries 1, 6, 11, 24). -/
def Obligations.CommandsDoNotSeeTheHostsRecord : Prop :=
  ∀ (i : Instr) (s t : State) (es : List Event) (rs : List Word) (out : List Byte) (n : Nat), exec i s = .next t →
    exec i { s with agenda := es, reads := rs, output := out, draws := n } =
      .next { t with agenda := es, reads := rs, output := out, draws := n }

/-! ### What each command writes -/

/-- The "writes" column of R95 and the "written by" column of R22: at its completion a command leaves every register
and array that is not in its row as it was. -/
def Obligations.CommandsWriteOnlyTheirRow : Prop :=
  ∀ (i : Instr) (s t : State), s.inflight = some i → exec i s = .next t →
    (t.arg0 = s.arg0 ∧ t.nameLen = s.nameLen ∧ t.key1Len = s.key1Len ∧ t.key2Len = s.key2Len) ∧
    (i ≠ .errClear → t.err = s.err) ∧
    (i ∉ [Instr.prngNext, .sfunc] → t.result = s.result) ∧
    (i ∉ [Instr.descramble, .fileSetup, .blockEnc, .blockDec, .streamPair] → t.a = s.a ∧ t.b = s.b) ∧
    (i ∉ [Instr.nameSeed, .nameSeedRaw, .fileKey, .fileSetup] → t.seed = s.seed) ∧
    (i ∉ [Instr.fileKey, .fileSetup] →
      t.fkey0 = s.fkey0 ∧ t.fkey1 = s.fkey1 ∧ t.fkey2 = s.fkey2 ∧ t.fkey3 = s.fkey3 ∧ t.fkeyValid = s.fkeyValid) ∧
    (i ∉ [Instr.prngSeed, .prngNext, .fileKey, .fileSetup] → t.mti = s.mti ∧ ∀ k < 624, t.mtWord k = s.mtWord k) ∧
    (i ∉ [Instr.prngSeed, .fileKey, .fileSetup] → t.prngValid = s.prngValid) ∧
    (i ∉ [Instr.streamBegin, .streamPair] → t.pairIdx = s.pairIdx) ∧
    (i ∉ [Instr.keyCopy, .keyXor, .descramble, .fileSetup, .streamBegin, .streamPair] →
      t.pairsLeft = s.pairsLeft ∧ t.streamActive = s.streamActive ∧ t.emit = s.emit) ∧
    (i ∉ [Instr.keyCopy, .fileSetup] →
      t.k1CurLen = s.k1CurLen ∧ t.k2CurLen = s.k2CurLen ∧ t.keysCopied = s.keysCopied) ∧
    (i ∉ [Instr.keyCopy, .keyXor, .descramble, .fileSetup] →
      t.keysReady = s.keysReady ∧ ∀ k < 1024, t.k1Word k = s.k1Word k) ∧
    (i ∉ [Instr.keyCopy, .descramble, .fileSetup] → ∀ k < 4096, t.k2Word k = s.k2Word k)

/-- The block never writes KS1, KS2 or NAME: no command changes a byte of them, at its issue or at its completion
(R46, R47, R50, R66). -/
def Obligations.CommandsNeverWriteKeySourcesOrName : Prop :=
  ∀ (i : Instr) (s t : State), exec i s = .next t →
    ∀ x, (0x00100 ≤ x ∧ x < 0x00200) ∨ (0x04000 ≤ x ∧ x < 0x08000) ∨ (0x10000 ≤ x ∧ x < 0x20000) →
      t.byte x = s.byte x

/-! ### Control commands -/

/-- At its completion NOP changes nothing but INFLIGHT and BUSY (R210), and ERR_CLEAR besides sets ERR to 0 and
changes nothing else (R211). -/
def Obligations.ControlCommandsTouchOnlyErr : Prop :=
  ∀ s : State,
    (s.inflight = some .nop → exec .nop s = .next { s with inflight := none, busy := false }) ∧
    (s.inflight = some .errClear → exec .errClear s = .next { s with err := 0, inflight := none, busy := false })

/-! ### PRNG -/

/-- PRNG_SEED at its completion leaves in MT the seeding recurrence of R111 from ARG0, MTI = 0 and PRNG_VALID = 1, and
changes nothing else (R116). -/
def Obligations.SeedFillsTheRecurrence : Prop :=
  ∀ s : State, s.inflight = some .prngSeed →
    ∃ t, exec .prngSeed s = .next t ∧
      t = { s with mem := t.mem, mti := 0, prngValid := true, inflight := none, busy := false } ∧
      t.mtWord 0 = s.arg0 ∧
      (∀ i, 1 ≤ i → i ≤ 623 →
        t.mtWord i = BitVec.ofNat 32 i + 0x6C078965 * (t.mtWord (i - 1) ^^^ (t.mtWord (i - 1) >>> 30))) ∧
      SameOutside s t 0x30000 2496

/-- PRNG_NEXT away from MTI = 0 draws the tempered word at the cursor, advances the cursor modulo 624 and changes
nothing else (R114, R117). -/
def Obligations.DrawTempersTheWordAtTheCursor : Prop :=
  ∀ s : State, s.inflight = some .prngNext → s.mti ≠ 0#10 → s.mti.toNat < 624 →
    exec .prngNext s =
      .next { s with
        result := temper (s.mtWord s.mti.toNat), mti := BitVec.ofNat 10 ((s.mti.toNat + 1) % 624),
        inflight := none, busy := false }

/-- PRNG_NEXT at MTI = 0 first regenerates all 624 words in place, in increasing order (R112: words i+1 and i+397 are
read as that order has left them), then draws word 0 and leaves MTI = 1; nothing else changes (R114, R117). The
loop's form is what the spec takes from general knowledge (G1, log entry 10). -/
def Obligations.DrawAtZeroTwistsInPlace : Prop :=
  ∀ s : State, s.inflight = some .prngNext → s.mti = 0#10 →
    ∃ t, exec .prngNext s = .next t ∧
      t = { s with mem := t.mem, result := temper (t.mtWord 0), mti := 1, inflight := none, busy := false } ∧
      (∀ i < 624,
        let y := (s.mtWord i &&& 0x80000000) |||
          ((if i = 623 then t.mtWord 0 else s.mtWord (i + 1)) &&& 0x7FFFFFFF)
        let far := if i < 227 then s.mtWord (i + 397) else t.mtWord (i - 227)
        t.mtWord i = if y.getLsbD 0 then (far ^^^ (y >>> 1)) ^^^ 0x9908B0DF else far ^^^ (y >>> 1)) ∧
      SameOutside s t 0x30000 2496

/-- Temper is the four steps of R113, with the shifts 11, 7, 15 and 18 and the masks 0x9D2C5680 and 0xEFC60000;
Temper(0) = 0, and Temper is a bijection on 32-bit words. The spec takes the steps from general knowledge (G2, log
entry 10) and infers the bijection. -/
def Obligations.TemperIsABijection : Prop :=
  (∀ y : Word,
    let y1 := y ^^^ (y >>> 11)
    let y2 := y1 ^^^ ((y1 <<< 7) &&& 0x9D2C5680)
    let y3 := y2 ^^^ ((y2 <<< 15) &&& 0xEFC60000)
    temper y = y3 ^^^ (y3 >>> 18)) ∧
  temper 0 = 0 ∧ Function.Bijective temper

/-- R115: two seedings with the same value followed by the same number of draws leave the same MT, MTI and next
output, whatever the states before (the spec's own inference from R111 and R114). -/
def Obligations.GeneratorIsAFunctionOfSeedAndCount : Prop :=
  ∀ (s1 s2 : State) (v : Word) (k : Nat),
    let t1 := State.drawNext^[k] (s1.mtSeed v)
    let t2 := State.drawNext^[k] (s2.mtSeed v)
    t1.mti = t2.mti ∧ (∀ i < 624, t1.mtWord i = t2.mtWord i) ∧ t1.drawWord = t2.drawWord

/-- After a seeding, k draws leave MTI = k mod 624 (R118, the spec's own inference). -/
def Obligations.CursorCountsDrawsModulo624 : Prop :=
  ∀ (s : State) (v : Word) (k : Nat), (State.drawNext^[k] (s.mtSeed v)).mti = BitVec.ofNat 10 (k % 624)

/-! ### Key derivation -/

/-- NAME_SEED at its completion puts the hash of the normalised name in SEED and NAME_SEED_RAW the hash of the name as
given, and nothing else changes (R136, R137, R138). -/
def Obligations.NameCommandsWriteOnlySeed : Prop :=
  ∀ s : State,
    (s.inflight = some .nameSeed →
      exec .nameSeed s = .next { s with
        seed := seedFromBytes (stripExt (upper (pathSegment [0x2F] ((List.range s.nameLen.toNat).map s.nameByte)))),
        inflight := none, busy := false }) ∧
    (s.inflight = some .nameSeedRaw →
      exec .nameSeedRaw s = .next { s with
        seed := seedFromBytes ((List.range s.nameLen.toNat).map s.nameByte), inflight := none, busy := false })

/-- The hash of R133: the empty string gives 0x19570320, and a last byte c at index i takes seed to seed * (c >> (i &
3)) + c; so a byte with c >> (i & 3) = 0 discards all earlier bytes. -/
def Obligations.SeedHashFollowsItsRecurrence : Prop :=
  seedFromBytes [] = 0x19570320 ∧
    ∀ (n : List Byte) (c : Byte),
      seedFromBytes (n ++ [c]) =
        seedFromBytes n * (c.setWidth 32 >>> (n.length % 4)) + c.setWidth 32 ∧
      (c >>> (n.length % 4) = 0 → seedFromBytes (n ++ [c]) = c.setWidth 32)

/-- Uppercasing a byte takes 0x20 off 'a'..'z' and leaves every other byte, those at or above 0x80 too; the name's
length stays, no '.' comes or goes, and uppercasing twice is uppercasing once (R131, R132). -/
def Obligations.UppercasingMovesOnlyTheLetters : Prop :=
  (∀ c : Byte, (0x61 ≤ c.toNat ∧ c.toNat ≤ 0x7A → (upperByte c).toNat = c.toNat - 0x20) ∧
    (¬ (0x61 ≤ c.toNat ∧ c.toNat ≤ 0x7A) → upperByte c = c) ∧ (upperByte c = 0x2E ↔ c = 0x2E)) ∧
  ∀ p : List Byte, (upper p).length = p.length ∧ upper (upper p) = upper p

/-- Name normalisation: the path segment is the bytes after the last '/', all of them if there is none (R130); the
extension strip leaves the bytes before the last '.', all of them if there is none, and its order with the
uppercasing does not matter (R132). -/
def Obligations.NormalizationCutsAtTheLastSlashAndDot : Prop :=
  (∀ p q : List Byte, (0x2F : Byte) ∉ q → pathSegment [0x2F] (p ++ [0x2F] ++ q) = q ∧ pathSegment [0x2F] q = q) ∧
    (∀ u e : List Byte, (0x2E : Byte) ∉ e → stripExt (u ++ [0x2E] ++ e) = u ∧ stripExt e = e) ∧
    ∀ u : List Byte, stripExt (upper u) = upper (stripExt u)

/-- bswap reverses the four bytes of a word and is its own inverse (R134). -/
def Obligations.BswapReversesTheBytes : Prop :=
  ∀ x : Word, bytesOfWord (bswap x) = (bytesOfWord x).reverse ∧ bswap (bswap x) = x

/-- FILE_KEY at its completion: SEED is the hash of the normalised name, MT the once-twisted seeding of it, FKEY0-3
its first four draws byte-swapped, MTI = 4, PRNG_VALID and FKEY_VALID 1, and nothing else changes (R135, R139). -/
def Obligations.FileKeyIsFourSwappedDraws : Prop :=
  ∀ s : State, s.inflight = some .fileKey →
    ∃ t, exec .fileKey s = .next t ∧
      t = { s with
        mem := t.mem, seed := seedFromBytes (normalizeName Config.thisHardware s.nameBytes), mti := 4,
        prngValid := true, fkeyValid := true,
        fkey0 := bswap (temper (t.mtWord 0)), fkey1 := bswap (temper (t.mtWord 1)),
        fkey2 := bswap (temper (t.mtWord 2)), fkey3 := bswap (temper (t.mtWord 3)), inflight := none, busy := false } ∧
      (∀ i < 624, t.mtWord i = (twist (mtInit t.seed)).getD i 0) ∧
      SameOutside s t 0x30000 2496

/-! ### Feistel core -/

/-- KEY_COPY with legal lengths at its completion: the lengths latched, K1 and K2 equal to KS1 and KS2 over them,
KEYS_COPIED 1, KEYS_READY 0, the stream aborted with PAIR_IDX kept, and nothing else changed (R159, R191). -/
def Obligations.KeyCopyCopiesTheSources : Prop :=
  ∀ s : State, s.inflight = some .keyCopy → LegalLengths s.key1Len.toNat s.key2Len.toNat →
    ∃ t, exec .keyCopy s = .next t ∧
      t = { s with
        mem := t.mem, k1CurLen := s.key1Len, k2CurLen := s.key2Len, keysCopied := true, keysReady := false,
        pairsLeft := 0, streamActive := false, emit := false, inflight := none, busy := false } ∧
      (∀ i < s.key1Len.toNat, t.k1Word i = s.ks1Word i) ∧
      (∀ i < s.key2Len.toNat, t.k2Word i = s.ks2Word i) ∧
      (∀ x, (x < 0x08000 ∨ 0x08000 + 4 * s.key1Len.toNat ≤ x) →
        (x < 0x20000 ∨ 0x20000 + 4 * s.key2Len.toNat ≤ x) → t.byte x = s.byte x)

/-- KEY_XOR at its completion xors word i of K1 with FKEY[i mod 4] over K1_CUR_LEN words, clears KEYS_READY, aborts
the stream with PAIR_IDX kept, and changes nothing else (R153, R160, R191). -/
def Obligations.KeyXorCyclesTheFileKey : Prop :=
  ∀ s : State, s.inflight = some .keyXor → s.k1CurLen.toNat ≤ 1024 →
    ∃ t, exec .keyXor s = .next t ∧
      t = { s with
        mem := t.mem, keysReady := false, pairsLeft := 0, streamActive := false, emit := false,
        inflight := none, busy := false } ∧
      (∀ i < s.k1CurLen.toNat,
        t.k1Word i = s.k1Word i ^^^ [s.fkey0, s.fkey1, s.fkey2, s.fkey3].getD (i % 4) 0) ∧
      SameOutside s t 0x08000 (4 * s.k1CurLen.toNat)

/-- KEY_XOR twice in a row with the same file key leaves every byte of the arrays as it was (R160). -/
def Obligations.KeyXorTwiceRestoresTheKeys : Prop :=
  ∀ s : State, s.inflight = some .keyXor →
    ∃ t u, exec .keyXor s = .next t ∧ exec .keyXor (t.accept .keyXor) = .next u ∧ ∀ x, u.byte x = s.byte x

/-- DESCRAMBLE on legal lengths at its completion is the in-place chain of R154 and R155: the pair written at words
2n, 2n+1 of K1 is F of the pair before it (first (0, 0)), under K1 as overwritten below 2n and the old K2; then
the same over K2 with the new K1 and K2 as overwritten below 2n, the first call there taking the last pair of K1.
A and B hold the last pair, KEYS_READY is 1, the stream is aborted, and nothing else changes (R161). -/
def Obligations.DescrambleChainsInPlace : Prop :=
  ∀ s : State, s.inflight = some .descramble → LegalLengths s.k1CurLen.toNat s.k2CurLen.toNat →
    ∃ t, exec .descramble s = .next t ∧
      t = { s with
        mem := t.mem, a := t.k2Word (s.k2CurLen.toNat - 2), b := t.k2Word (s.k2CurLen.toNat - 1), keysReady := true,
        pairsLeft := 0, streamActive := false, emit := false, inflight := none, busy := false } ∧
      (∀ n, 2 * n < s.k1CurLen.toNat →
        (t.k1Word (2 * n), t.k1Word (2 * n + 1)) =
          forward (halfOverwritten 18 (2 * n) s.k1Word t.k1Word) (sBoxesOf s)
            (if n = 0 then (0, 0) else (t.k1Word (2 * n - 2), t.k1Word (2 * n - 1)))) ∧
      (∀ n, 2 * n < s.k2CurLen.toNat →
        (t.k2Word (2 * n), t.k2Word (2 * n + 1)) =
          forward (roundKeysOf t) (halfOverwritten 1024 (2 * n) s.k2Word t.k2Word)
            (if n = 0 then (t.k1Word (s.k1CurLen.toNat - 2), t.k1Word (s.k1CurLen.toNat - 1))
              else (t.k2Word (2 * n - 2), t.k2Word (2 * n - 1)))) ∧
      (∀ x, (x < 0x08000 ∨ 0x08000 + 4 * s.k1CurLen.toNat ≤ x) →
        (x < 0x20000 ∨ 0x20000 + 4 * s.k2CurLen.toNat ≤ x) → t.byte x = s.byte x)

/-- FILE_SETUP from an idle block whose conditions hold: it is accepted and completes, each of KEY_COPY, FILE_KEY,
KEY_XOR and DESCRAMBLE issued one after the other is accepted and completes, and both ways end in the same state
(R162). -/
def Obligations.FileSetupIsTheFourCommands : Prop :=
  ∀ s : State, Idle s → s.err = 0#4 → IssueConditions .fileSetup s →
    ∃ s1 s2 s3 t,
      exec .keyCopy s = .next (s.accept .keyCopy) ∧ exec .keyCopy (s.accept .keyCopy) = .next s1 ∧
      exec .fileKey s1 = .next (s1.accept .fileKey) ∧ exec .fileKey (s1.accept .fileKey) = .next s2 ∧
      exec .keyXor s2 = .next (s2.accept .keyXor) ∧ exec .keyXor (s2.accept .keyXor) = .next s3 ∧
      exec .descramble s3 = .next (s3.accept .descramble) ∧ exec .descramble (s3.accept .descramble) = .next t ∧
      exec .fileSetup s = .next (s.accept .fileSetup) ∧ exec .fileSetup (s.accept .fileSetup) = .next t

/-- BLOCK_ENC and BLOCK_DEC at their completion put F(A, B) and R(A, B) in (A, B), the loops of R151 and R152 written
out over K1 and K2 as they are, with S of R150 written out; nothing else changes (R163, R164). -/
def Obligations.BlockCommandsApplyTheRoundFunctions : Prop :=
  ∀ s : State,
    let S : Word → Word := fun x =>
      s.k2Word ((x.extractLsb' 0 8).toNat + 0x300) +
        (s.k2Word ((x.extractLsb' 8 8).toNat + 0x200) ^^^ s.k2Word ((x.extractLsb' 16 8).toNat + 0x100)) +
        s.k2Word (x.extractLsb' 24 8).toNat
    let pass : Word × Word → Nat → Word × Word := fun v45 rb =>
      let v1 := v45.2 ^^^ s.k1Word rb
      let v2 := v45.1 ^^^ s.k1Word (rb + 1) ^^^ S v1
      let v3 := v1 ^^^ s.k1Word (rb + 2) ^^^ S v2
      let v4 := v2 ^^^ s.k1Word (rb + 3) ^^^ S v3
      (v4, v3 ^^^ S v4)
    let round : Word × Word → Nat → Word × Word := fun v23 i =>
      let v1 := v23.1 ^^^ s.k1Word (17 - i)
      (v23.2 ^^^ S v1, v1)
    let f := pass (pass (pass (pass (s.b, s.a) 0) 4) 8) 12
    let r := (List.range 16).foldl round (s.a, s.b)
    (s.inflight = some .blockEnc →
      exec .blockEnc s = .next { s with
        a := f.1 ^^^ s.k1Word 17, b := f.2 ^^^ s.k1Word 16, inflight := none, busy := false }) ∧
    (s.inflight = some .blockDec →
      exec .blockDec s = .next { s with
        a := r.2 ^^^ s.k1Word 0, b := r.1 ^^^ s.k1Word 1, inflight := none, busy := false })

/-- SFUNC at its completion puts in RESULT the sum of R150: K2[low byte + 0x300] + (K2[byte 1 + 0x200] xor K2[byte 2 +
0x100]) + K2[high byte], of ARG0, and changes nothing else (R165). -/
def Obligations.SfuncMixesTheFourTables : Prop :=
  ∀ s : State, s.inflight = some .sfunc →
    exec .sfunc s = .next { s with
      result := s.k2Word ((s.arg0.extractLsb' 0 8).toNat + 0x300) +
        (s.k2Word ((s.arg0.extractLsb' 8 8).toNat + 0x200) ^^^ s.k2Word ((s.arg0.extractLsb' 16 8).toNat + 0x100)) +
        s.k2Word (s.arg0.extractLsb' 24 8).toNat,
      inflight := none, busy := false }

/-- R156: for any working keys, R undoes F and F undoes R; and both are the two-halves Feistel form, sixteen times L
<- L xor key, Rw <- Rw xor S(L), swap, then one more swap: F with the keys K1[0..15] in order, then Rw xor K1[16]
and L xor K1[17], and R with K1[17], K1[16], ..., K1[2], then Rw xor K1[1] and L xor K1[0]; S is written out from
R150 (the spec's own inference from R151 and R152). -/
def Obligations.RoundFunctionsAreInverse : Prop :=
  ∀ (k1 k2 : List Word) (p : Word × Word),
    let S : Word → Word := fun x =>
      k2.getD ((x.extractLsb' 0 8).toNat + 0x300) 0 +
        (k2.getD ((x.extractLsb' 8 8).toNat + 0x200) 0 ^^^ k2.getD ((x.extractLsb' 16 8).toNat + 0x100) 0) +
        k2.getD (x.extractLsb' 24 8).toNat 0
    let halves : (Nat → Word) → Word × Word := fun key =>
      (List.range 16).foldl (fun lr r => (lr.2 ^^^ S (lr.1 ^^^ key r), lr.1 ^^^ key r)) p
    let f := halves (fun r => k1.getD r 0)
    let r := halves (fun r => k1.getD (17 - r) 0)
    forward k1 k2 p = (f.2 ^^^ k1.getD 17 0, f.1 ^^^ k1.getD 16 0) ∧
    reverse k1 k2 p = (r.2 ^^^ k1.getD 0 0, r.1 ^^^ k1.getD 1 0) ∧
    reverse k1 k2 (forward k1 k2 p) = p ∧ forward k1 k2 (reverse k1 k2 p) = p

/-- BLOCK_DEC after BLOCK_ENC gives back the whole state but for INFLIGHT and BUSY (R156, R163). -/
def Obligations.BlockDecUndoesBlockEnc : Prop :=
  ∀ s : State, s.inflight = some .blockEnc →
    ∃ t, exec .blockEnc s = .next t ∧
      exec .blockDec (t.accept .blockDec) = .next { s with inflight := none, busy := false }

/-! ### Stream -/

/-- SizeOK(n) equals n mod 8 = 0 (R192). -/
def Obligations.SizeOKMeansMultipleOfEight : Prop := ∀ n : Nat, sizeOK n = true ↔ n % 8 = 0

/-- STREAM_BEGIN at its completion: PAIRS_LEFT = ARG0 div 8, PAIR_IDX = 0, STREAM_ACTIVE = 1 exactly when there is a
pair, EMIT = 0, and nothing else changes (R194). -/
def Obligations.StreamBeginCountsThePairs : Prop :=
  ∀ s : State, s.inflight = some .streamBegin →
    exec .streamBegin s = .next { s with
      pairsLeft := BitVec.ofNat 32 (s.arg0.toNat / 8), pairIdx := 0, streamActive := decide (8 ≤ s.arg0.toNat),
      emit := false, inflight := none, busy := false }

/-- STREAM_PAIR at its completion: (A, B) = R(A, B), EMIT = 1 exactly when the pair's 0-based index is at least 2,
PAIR_IDX one more, PAIRS_LEFT one less, STREAM_ACTIVE = 1 exactly when pairs are left, and nothing else changes
(R193, R195). -/
def Obligations.StreamPairDecryptsAndCounts : Prop :=
  ∀ s : State, s.inflight = some .streamPair →
    exec .streamPair s = .next { s with
      a := (reverse (roundKeysOf s) (sBoxesOf s) (s.a, s.b)).1,
      b := (reverse (roundKeysOf s) (sBoxesOf s) (s.a, s.b)).2,
      emit := decide (2 ≤ s.pairIdx.toNat), pairIdx := s.pairIdx + 1, pairsLeft := s.pairsLeft - 1,
      streamActive := decide (s.pairsLeft ≠ 1#32), inflight := none, busy := false }

/-- R191: KEY_COPY, KEY_XOR, DESCRAMBLE and FILE_SETUP abort the stream at their completion and leave PAIR_IDX. -/
def Obligations.KeyCommandsAbortTheStream : Prop :=
  ∀ (i : Instr) (s : State), i ∈ [Instr.keyCopy, .keyXor, .descramble, .fileSetup] → s.inflight = some i →
    ∃ t, exec i s = .next t ∧ t.pairsLeft = 0#32 ∧ t.streamActive = false ∧ t.emit = false ∧ t.pairIdx = s.pairIdx

/-! ### Host bus -/

/-- STATUS as the host reads it: each flag at its bit, ERR in bits 11:8, bit 7 and bits 31:12 zero (R24, R55). -/
def Obligations.StatusWordHasItsFields : Prop :=
  ∀ s : State,
    s.statusWord.getLsbD 0 = s.busy ∧ s.statusWord.getLsbD 1 = s.prngValid ∧ s.statusWord.getLsbD 2 = s.fkeyValid ∧
    s.statusWord.getLsbD 3 = s.keysCopied ∧ s.statusWord.getLsbD 4 = s.keysReady ∧
    s.statusWord.getLsbD 5 = s.streamActive ∧ s.statusWord.getLsbD 6 = s.emit ∧ s.statusWord.getLsbD 7 = false ∧
    s.statusWord.extractLsb' 8 4 = s.err ∧ s.statusWord.extractLsb' 12 20 = 0

/-- While BUSY = 0 a host read of each register offset of R22 returns the register: CMD reads 0, ID its constant, the
narrow registers read 0 above their bits (R37-R44, R64). -/
def Obligations.RegisterReadsReturnTheRegister : Prop :=
  ∀ (s : State) (es : List Event), s.busy = false →
    ∀ av ∈ ([(0x000, 0), (0x004, s.statusWord), (0x008, s.arg0), (0x00C, s.result), (0x010, s.a), (0x014, s.b),
        (0x018, s.seed), (0x01C, s.nameLen.setWidth 32), (0x020, s.key1Len.setWidth 32),
        (0x024, s.key2Len.setWidth 32), (0x028, s.fkey0), (0x02C, s.fkey1), (0x030, s.fkey2), (0x034, s.fkey3),
        (0x038, s.mti.setWidth 32), (0x03C, s.pairIdx), (0x040, s.pairsLeft), (0x044, s.k1CurLen.setWidth 32),
        (0x048, s.k2CurLen.setWidth 32), (0x04C, 0x42425401)] : List (Nat × Word)),
      step (s.setAgenda (.host (.read av.1 4) :: es)) = .next { s with agenda := es, reads := av.2 :: s.reads }

/-- While BUSY = 0 a host read of an element of an array returns the stored word, and of word q of the name window
{NAME[4q+3], NAME[4q+2], NAME[4q+1], NAME[4q]} (R65, R66, R68, R69, R70). -/
def Obligations.ArrayReadsReturnTheWord : Prop :=
  ∀ (s : State) (es : List Event) (i : Nat), s.busy = false →
    (i < 64 → step (s.setAgenda (.host (.read (0x00100 + 4 * i) 4) :: es)) =
      .next { s with
        agenda := es,
        reads := (s.nameByte (4 * i + 3) ++ s.nameByte (4 * i + 2) ++ s.nameByte (4 * i + 1) ++ s.nameByte (4 * i)) ::
          s.reads }) ∧
    (i < 1024 → step (s.setAgenda (.host (.read (0x04000 + 4 * i) 4) :: es)) =
      .next { s with agenda := es, reads := s.ks1Word i :: s.reads }) ∧
    (i < 1024 → step (s.setAgenda (.host (.read (0x08000 + 4 * i) 4) :: es)) =
      .next { s with agenda := es, reads := s.k1Word i :: s.reads }) ∧
    (i < 4096 → step (s.setAgenda (.host (.read (0x10000 + 4 * i) 4) :: es)) =
      .next { s with agenda := es, reads := s.ks2Word i :: s.reads }) ∧
    (i < 4096 → step (s.setAgenda (.host (.read (0x20000 + 4 * i) 4) :: es)) =
      .next { s with agenda := es, reads := s.k2Word i :: s.reads }) ∧
    (i < 624 → step (s.setAgenda (.host (.read (0x30000 + 4 * i) 4) :: es)) =
      .next { s with agenda := es, reads := s.mtWord i :: s.reads })

/-- R71: a host read of a reserved address returns 0, whether BUSY is 0 or 1 (R73 leaves only registers and arrays
that hold something unspecified; log entry 6); a host write to one is ignored while BUSY = 0 (while BUSY = 1 every
write is dropped, R72); neither raises an error. -/
def Obligations.ReservedAddressesReadZeroAndIgnoreWrites : Prop :=
  ∀ (s : State) (es : List Event) (addr : Nat) (v : Word), addr % 4 = 0 →
    ((0x00050 ≤ addr ∧ addr < 0x00100) ∨ (0x00200 ≤ addr ∧ addr < 0x04000) ∨ (0x05000 ≤ addr ∧ addr < 0x08000) ∨
      (0x09000 ≤ addr ∧ addr < 0x10000) ∨ (0x14000 ≤ addr ∧ addr < 0x20000) ∨ (0x24000 ≤ addr ∧ addr < 0x30000) ∨
      (0x309C0 ≤ addr ∧ addr < 0x40000)) →
    step (s.setAgenda (.host (.read addr 4) :: es)) = .next { s with agenda := es, reads := 0 :: s.reads } ∧
    (s.busy = false → step (s.setAgenda (.host (.write addr 4 v) :: es)) = .next (s.setAgenda es))

/-- A host write to a read-only register or to the K1, K2 or MT window is ignored and raises no error (R56, R68, R69,
R70). -/
def Obligations.ReadOnlyTargetsIgnoreWrites : Prop :=
  ∀ (s : State) (es : List Event) (addr : Nat) (v : Word), addr % 4 = 0 → s.busy = false →
    (addr ∈ [0x004, 0x00C, 0x018, 0x028, 0x02C, 0x030, 0x034, 0x038, 0x03C, 0x040, 0x044, 0x048, 0x04C] ∨
      (0x08000 ≤ addr ∧ addr < 0x0C000) ∨ (0x20000 ≤ addr ∧ addr < 0x31000)) →
    step (s.setAgenda (.host (.write addr 4 v) :: es)) = .next (s.setAgenda es)

/-- A host write to ARG0, A or B stores all 32 bits, to NAME_LEN, KEY1_LEN or KEY2_LEN bits 15:0; nothing else
changes, so K1_CUR_LEN and K2_CUR_LEN keep the latched lengths (R44, R56, R259). -/
def Obligations.RegisterWritesStoreTheirBits : Prop :=
  ∀ (s : State) (es : List Event) (v : Word), s.busy = false →
    step (s.setAgenda (.host (.write 0x008 4 v) :: es)) = .next { s with agenda := es, arg0 := v } ∧
    step (s.setAgenda (.host (.write 0x010 4 v) :: es)) = .next { s with agenda := es, a := v } ∧
    step (s.setAgenda (.host (.write 0x014 4 v) :: es)) = .next { s with agenda := es, b := v } ∧
    step (s.setAgenda (.host (.write 0x01C 4 v) :: es)) =
      .next { s with agenda := es, nameLen := v.extractLsb' 0 16 } ∧
    step (s.setAgenda (.host (.write 0x020 4 v) :: es)) =
      .next { s with agenda := es, key1Len := v.extractLsb' 0 16 } ∧
    step (s.setAgenda (.host (.write 0x024 4 v) :: es)) =
      .next { s with agenda := es, key2Len := v.extractLsb' 0 16 }

/-- R65: a write of v to the word at 0x00100 + 4q stores NAME[4q+k] = v[8k+7:8k] for k = 0..3 and nothing else, and a
read of that word then returns v. -/
def Obligations.NameWindowPacksLittleEndian : Prop :=
  ∀ (s : State) (es : List Event) (q : Nat) (v : Word), s.busy = false → q < 64 →
    ∃ t, step (s.setAgenda (.host (.write (0x00100 + 4 * q) 4 v) :: es)) = .next t ∧
      t = { s with agenda := es, mem := t.mem } ∧
      (∀ k < 4, t.nameByte (4 * q + k) = v.extractLsb' (8 * k) 8) ∧
      SameOutside s t (0x00100 + 4 * q) 4 ∧
      ∀ fs, step (t.setAgenda (.host (.read (0x00100 + 4 * q) 4) :: fs)) =
        .next { t with agenda := fs, reads := v :: t.reads }

/-- A host write to a word of KS1 or KS2 stores it, and changes no other byte and no register (R66); so K1 and K2 keep
what was copied (R259). -/
def Obligations.KeySourceWritesStoreTheWord : Prop :=
  ∀ (s : State) (es : List Event) (i : Nat) (v : Word), s.busy = false →
    (i < 1024 → ∃ t, step (s.setAgenda (.host (.write (0x04000 + 4 * i) 4 v) :: es)) = .next t ∧
      t = { s with agenda := es, mem := t.mem } ∧ t.ks1Word i = v ∧ SameOutside s t (0x04000 + 4 * i) 4) ∧
    (i < 4096 → ∃ t, step (s.setAgenda (.host (.write (0x10000 + 4 * i) 4 v) :: es)) = .next t ∧
      t = { s with agenda := es, mem := t.mem } ∧ t.ks2Word i = v ∧ SameOutside s t (0x10000 + 4 * i) 4)

/-- No read has a side effect: it changes no register and no array, only the host's record of words read and, under
BUSY, the count of free words, which stays while BUSY = 0 (R75; log entries 6 and 11). -/
def Obligations.ReadsHaveNoSideEffect : Prop :=
  ∀ (s t : State) (es : List Event) (addr bytes : Nat),
    step (s.setAgenda (.host (.read addr bytes) :: es)) = .next t →
      t = { s with agenda := es, reads := t.reads, draws := t.draws } ∧ t.reads.tail = s.reads ∧
      (s.busy = false → t.draws = s.draws)

/-- While BUSY = 1 a read of a register or array that a command writes returns the next free word (R73; the free word
is `Config.busyRead`, log entry 6); a read of STATUS, ID, ARG0, NAME_LEN, KEY1_LEN, KEY2_LEN, NAME, KS1 or KS2
returns the current value; and a read of CMD returns 0 (R23, R75; log entry 6). -/
def Obligations.BusyReadsOfResultsAreFree : Prop :=
  ∀ (s : State) (es : List Event), s.busy = true →
    (∀ addr : Nat, addr % 4 = 0 →
      (addr ∈ [0x00C, 0x010, 0x014, 0x018, 0x028, 0x02C, 0x030, 0x034, 0x038, 0x03C, 0x040, 0x044, 0x048] ∨
        (0x08000 ≤ addr ∧ addr < 0x09000) ∨ (0x20000 ≤ addr ∧ addr < 0x24000) ∨
        (0x30000 ≤ addr ∧ addr < 0x309C0)) →
      step (s.setAgenda (.host (.read addr 4) :: es)) =
        .next { s with agenda := es, reads := Config.busyRead s.draws :: s.reads, draws := s.draws + 1 }) ∧
    (∀ av ∈ ([(0x000, 0), (0x004, s.statusWord), (0x008, s.arg0), (0x01C, s.nameLen.setWidth 32),
        (0x020, s.key1Len.setWidth 32), (0x024, s.key2Len.setWidth 32), (0x04C, 0x42425401)] : List (Nat × Word)),
      step (s.setAgenda (.host (.read av.1 4) :: es)) = .next { s with agenda := es, reads := av.2 :: s.reads }) ∧
    (∀ q < 64, step (s.setAgenda (.host (.read (0x00100 + 4 * q) 4) :: es)) =
      .next { s with
        agenda := es,
        reads := (s.nameByte (4 * q + 3) ++ s.nameByte (4 * q + 2) ++ s.nameByte (4 * q + 1) ++ s.nameByte (4 * q)) ::
          s.reads }) ∧
    (∀ i < 1024, step (s.setAgenda (.host (.read (0x04000 + 4 * i) 4) :: es)) =
      .next { s with agenda := es, reads := s.ks1Word i :: s.reads }) ∧
    (∀ i < 4096, step (s.setAgenda (.host (.read (0x10000 + 4 * i) 4) :: es)) =
      .next { s with agenda := es, reads := s.ks2Word i :: s.reads })

/-- A host access that is not 32 bits wide, not below 2^18 or not aligned is refused (R60, R61, R62, U5); which of the
three names it gets when several apply is the model's choice (log entry 8). -/
def Obligations.AbsentAccessesAreRefused : Prop :=
  ∀ (s : State) (es : List Event) (x : HostAccess) (addr bytes : Nat) (v : Word),
    (x = .read addr bytes ∨ x = .write addr bytes v) →
    (bytes ≠ 4 → step (s.setAgenda (.host x :: es)) = .refused .unsupportedWidth) ∧
    (bytes = 4 → 2 ^ 18 ≤ addr → step (s.setAgenda (.host x :: es)) = .refused .addressOutOfRange) ∧
    (bytes = 4 → addr < 2 ^ 18 → addr % 4 ≠ 0 → step (s.setAgenda (.host x :: es)) = .refused .misalignedAccess)

/-! ### Reset -/

/-- R250: the reset event, at any time, abandons the command in flight and sets every register to its reset value; ID
still reads 0x42425401. -/
def Obligations.ResetEventSetsEveryRegister : Prop :=
  ∀ (s : State) (es : List Event),
    ∃ t, step (s.setAgenda (.reset :: es)) = .next t ∧ t.inflight = none ∧ t.statusWord = 0 ∧
      t.busy = false ∧ t.prngValid = false ∧ t.fkeyValid = false ∧ t.keysCopied = false ∧ t.keysReady = false ∧
      t.streamActive = false ∧ t.emit = false ∧ t.err = 0#4 ∧ t.arg0 = 0 ∧ t.result = 0 ∧ t.a = 0 ∧ t.b = 0 ∧
      t.seed = 0 ∧ t.nameLen = 0 ∧ t.key1Len = 0 ∧ t.key2Len = 0 ∧ t.fkey0 = 0 ∧ t.fkey1 = 0 ∧ t.fkey2 = 0 ∧
      t.fkey3 = 0 ∧ t.mti = 0#10 ∧ t.pairIdx = 0 ∧ t.pairsLeft = 0#32 ∧ t.k1CurLen = 0 ∧ t.k2CurLen = 0 ∧
      t.regValue .id = 0x42425401

/-- R251 (the spec's own inference from R250 and the command rules): after a reset event the flags say that nothing is
valid, PRNG_NEXT raises NOT_SEEDED, and KEY_XOR, DESCRAMBLE, BLOCK_ENC, BLOCK_DEC, SFUNC, STREAM_BEGIN and
STREAM_PAIR raise SEQUENCE. -/
def Obligations.AfterResetNothingIsValid : Prop :=
  ∀ (s : State) (es : List Event),
    ∃ t, step (s.setAgenda (.reset :: es)) = .next t ∧
      (t.prngValid = false ∧ t.fkeyValid = false ∧ t.keysCopied = false ∧ t.keysReady = false ∧
        t.streamActive = false ∧ t.emit = false) ∧
      exec .prngNext t = .next { t with err := 4 } ∧
      ∀ i ∈ [Instr.keyXor, .descramble, .blockEnc, .blockDec, .sfunc, .streamBegin, .streamPair],
        exec i t = .next { t with err := 5 }
end

