-- ==== Sys2Proof/Laws/AddressMap.lean ====
section
/-! SUPPORT. The address map of spec/20_memory.md R63 in numbers, window by window, and the bytes that belong to an
array. -/

namespace Sys2Proof.Machine

/-! ### The windows -/

/-- The register block of the address map (R63). -/
theorem decodeAddr_reg {a : Nat} (h : a < 0x00100) : decodeAddr Config.thisHardware a = regTarget a := if_pos h

/-- The NAME window of the address map (R63). -/
theorem decodeAddr_name {a : Nat} (h : 0x00100 ≤ a ∧ a < 0x00200) :
    decodeAddr Config.thisHardware a = .name ((a - 0x00100) / 4) := by
  unfold decodeAddr elementOr
  rw [if_neg (show ¬ a < nameBase by unfold nameBase; omega), if_pos (show a < nameEnd by unfold nameEnd; omega),
    if_pos (show (a - nameBase) / 4 < (Config.thisHardware.nameMax + 3) / 4 by
      show (a - 0x00100) / 4 < 64; omega)]
  rfl

/-- A reserved range of the address map (R63, R71). -/
theorem decodeAddr_before_ks1 {a : Nat} (h : 0x00200 ≤ a ∧ a < 0x04000) :
    decodeAddr Config.thisHardware a = .reserved := by
  unfold decodeAddr
  rw [if_neg (show ¬ a < nameBase by unfold nameBase; omega), if_neg (show ¬ a < nameEnd by unfold nameEnd; omega),
    if_pos (show a < ks1Base by unfold ks1Base; omega)]

/-- The KS1 window of the address map (R63). -/
theorem decodeAddr_ks1 {a : Nat} (h : 0x04000 ≤ a ∧ a < 0x05000) :
    decodeAddr Config.thisHardware a = .ks1 ((a - 0x04000) / 4) := by
  unfold decodeAddr elementOr
  rw [if_neg (show ¬ a < nameBase by unfold nameBase; omega), if_neg (show ¬ a < nameEnd by unfold nameEnd; omega),
    if_neg (show ¬ a < ks1Base by unfold ks1Base; omega), if_pos (show a < k1Base by unfold k1Base; omega),
    if_pos (show (a - ks1Base) / 4 < Config.thisHardware.k1Max by show (a - 0x04000) / 4 < 1024; omega)]
  rfl

/-- The KS1 window beyond the array is reserved (R63, R71). -/
theorem decodeAddr_beyond_ks1 {a : Nat} (h : 0x05000 ≤ a ∧ a < 0x08000) :
    decodeAddr Config.thisHardware a = .reserved := by
  unfold decodeAddr elementOr
  rw [if_neg (show ¬ a < nameBase by unfold nameBase; omega), if_neg (show ¬ a < nameEnd by unfold nameEnd; omega),
    if_neg (show ¬ a < ks1Base by unfold ks1Base; omega), if_pos (show a < k1Base by unfold k1Base; omega),
    if_neg (show ¬ (a - ks1Base) / 4 < Config.thisHardware.k1Max by
      show ¬ (a - 0x04000) / 4 < 1024; omega)]

/-- The K1 window of the address map (R63). -/
theorem decodeAddr_k1 {a : Nat} (h : 0x08000 ≤ a ∧ a < 0x09000) :
    decodeAddr Config.thisHardware a = .k1 ((a - 0x08000) / 4) := by
  unfold decodeAddr elementOr
  rw [if_neg (show ¬ a < nameBase by unfold nameBase; omega), if_neg (show ¬ a < nameEnd by unfold nameEnd; omega),
    if_neg (show ¬ a < ks1Base by unfold ks1Base; omega), if_neg (show ¬ a < k1Base by unfold k1Base; omega),
    if_pos (show a < k1End by unfold k1End; omega),
    if_pos (show (a - k1Base) / 4 < Config.thisHardware.k1Max by show (a - 0x08000) / 4 < 1024; omega)]
  rfl

/-- The K1 window beyond the array is reserved (R63, R71). -/
theorem decodeAddr_beyond_k1 {a : Nat} (h : 0x09000 ≤ a ∧ a < 0x0C000) :
    decodeAddr Config.thisHardware a = .reserved := by
  unfold decodeAddr elementOr
  rw [if_neg (show ¬ a < nameBase by unfold nameBase; omega), if_neg (show ¬ a < nameEnd by unfold nameEnd; omega),
    if_neg (show ¬ a < ks1Base by unfold ks1Base; omega), if_neg (show ¬ a < k1Base by unfold k1Base; omega),
    if_pos (show a < k1End by unfold k1End; omega),
    if_neg (show ¬ (a - k1Base) / 4 < Config.thisHardware.k1Max by
      show ¬ (a - 0x08000) / 4 < 1024; omega)]

/-- A reserved range of the address map (R63, R71). -/
theorem decodeAddr_before_ks2 {a : Nat} (h : 0x0C000 ≤ a ∧ a < 0x10000) :
    decodeAddr Config.thisHardware a = .reserved := by
  unfold decodeAddr
  rw [if_neg (show ¬ a < nameBase by unfold nameBase; omega), if_neg (show ¬ a < nameEnd by unfold nameEnd; omega),
    if_neg (show ¬ a < ks1Base by unfold ks1Base; omega), if_neg (show ¬ a < k1Base by unfold k1Base; omega),
    if_neg (show ¬ a < k1End by unfold k1End; omega), if_pos (show a < ks2Base by unfold ks2Base; omega)]

/-- The KS2 window of the address map (R63). -/
theorem decodeAddr_ks2 {a : Nat} (h : 0x10000 ≤ a ∧ a < 0x14000) :
    decodeAddr Config.thisHardware a = .ks2 ((a - 0x10000) / 4) := by
  unfold decodeAddr elementOr
  rw [if_neg (show ¬ a < nameBase by unfold nameBase; omega), if_neg (show ¬ a < nameEnd by unfold nameEnd; omega),
    if_neg (show ¬ a < ks1Base by unfold ks1Base; omega), if_neg (show ¬ a < k1Base by unfold k1Base; omega),
    if_neg (show ¬ a < k1End by unfold k1End; omega), if_neg (show ¬ a < ks2Base by unfold ks2Base; omega),
    if_pos (show a < k2Base by unfold k2Base; omega),
    if_pos (show (a - ks2Base) / 4 < Config.thisHardware.k2Max by show (a - 0x10000) / 4 < 4096; omega)]
  rfl

/-- The KS2 window beyond the array is reserved (R63, R71). -/
theorem decodeAddr_beyond_ks2 {a : Nat} (h : 0x14000 ≤ a ∧ a < 0x20000) :
    decodeAddr Config.thisHardware a = .reserved := by
  unfold decodeAddr elementOr
  rw [if_neg (show ¬ a < nameBase by unfold nameBase; omega), if_neg (show ¬ a < nameEnd by unfold nameEnd; omega),
    if_neg (show ¬ a < ks1Base by unfold ks1Base; omega), if_neg (show ¬ a < k1Base by unfold k1Base; omega),
    if_neg (show ¬ a < k1End by unfold k1End; omega), if_neg (show ¬ a < ks2Base by unfold ks2Base; omega),
    if_pos (show a < k2Base by unfold k2Base; omega),
    if_neg (show ¬ (a - ks2Base) / 4 < Config.thisHardware.k2Max by
      show ¬ (a - 0x10000) / 4 < 4096; omega)]

/-- The K2 window of the address map (R63). -/
theorem decodeAddr_k2 {a : Nat} (h : 0x20000 ≤ a ∧ a < 0x24000) :
    decodeAddr Config.thisHardware a = .k2 ((a - 0x20000) / 4) := by
  unfold decodeAddr elementOr
  rw [if_neg (show ¬ a < nameBase by unfold nameBase; omega), if_neg (show ¬ a < nameEnd by unfold nameEnd; omega),
    if_neg (show ¬ a < ks1Base by unfold ks1Base; omega), if_neg (show ¬ a < k1Base by unfold k1Base; omega),
    if_neg (show ¬ a < k1End by unfold k1End; omega), if_neg (show ¬ a < ks2Base by unfold ks2Base; omega),
    if_neg (show ¬ a < k2Base by unfold k2Base; omega), if_pos (show a < mtBase by unfold mtBase; omega),
    if_pos (show (a - k2Base) / 4 < Config.thisHardware.k2Max by show (a - 0x20000) / 4 < 4096; omega)]
  rfl

/-- The K2 window beyond the array is reserved (R63, R71). -/
theorem decodeAddr_beyond_k2 {a : Nat} (h : 0x24000 ≤ a ∧ a < 0x30000) :
    decodeAddr Config.thisHardware a = .reserved := by
  unfold decodeAddr elementOr
  rw [if_neg (show ¬ a < nameBase by unfold nameBase; omega), if_neg (show ¬ a < nameEnd by unfold nameEnd; omega),
    if_neg (show ¬ a < ks1Base by unfold ks1Base; omega), if_neg (show ¬ a < k1Base by unfold k1Base; omega),
    if_neg (show ¬ a < k1End by unfold k1End; omega), if_neg (show ¬ a < ks2Base by unfold ks2Base; omega),
    if_neg (show ¬ a < k2Base by unfold k2Base; omega), if_pos (show a < mtBase by unfold mtBase; omega),
    if_neg (show ¬ (a - k2Base) / 4 < Config.thisHardware.k2Max by
      show ¬ (a - 0x20000) / 4 < 4096; omega)]

/-- The MT window of the address map (R63). -/
theorem decodeAddr_mt {a : Nat} (h : 0x30000 ≤ a ∧ a < 0x309C0) :
    decodeAddr Config.thisHardware a = .mt ((a - 0x30000) / 4) := by
  unfold decodeAddr elementOr
  rw [if_neg (show ¬ a < nameBase by unfold nameBase; omega), if_neg (show ¬ a < nameEnd by unfold nameEnd; omega),
    if_neg (show ¬ a < ks1Base by unfold ks1Base; omega), if_neg (show ¬ a < k1Base by unfold k1Base; omega),
    if_neg (show ¬ a < k1End by unfold k1End; omega), if_neg (show ¬ a < ks2Base by unfold ks2Base; omega),
    if_neg (show ¬ a < k2Base by unfold k2Base; omega), if_neg (show ¬ a < mtBase by unfold mtBase; omega),
    if_pos (show a < mtEnd by unfold mtEnd; omega),
    if_pos (show (a - mtBase) / 4 < mtWords by unfold mtBase mtWords; omega)]
  rfl

/-- The MT window beyond the array is reserved (R63, R71). -/
theorem decodeAddr_beyond_mt {a : Nat} (h : 0x309C0 ≤ a ∧ a < 0x31000) :
    decodeAddr Config.thisHardware a = .reserved := by
  unfold decodeAddr elementOr
  rw [if_neg (show ¬ a < nameBase by unfold nameBase; omega), if_neg (show ¬ a < nameEnd by unfold nameEnd; omega),
    if_neg (show ¬ a < ks1Base by unfold ks1Base; omega), if_neg (show ¬ a < k1Base by unfold k1Base; omega),
    if_neg (show ¬ a < k1End by unfold k1End; omega), if_neg (show ¬ a < ks2Base by unfold ks2Base; omega),
    if_neg (show ¬ a < k2Base by unfold k2Base; omega), if_neg (show ¬ a < mtBase by unfold mtBase; omega),
    if_pos (show a < mtEnd by unfold mtEnd; omega),
    if_neg (show ¬ (a - mtBase) / 4 < mtWords by unfold mtBase mtWords; omega)]

/-- A reserved range of the address map (R63, R71). -/
theorem decodeAddr_last {a : Nat} (h : 0x31000 ≤ a) : decodeAddr Config.thisHardware a = .reserved := by
  unfold decodeAddr
  rw [if_neg (show ¬ a < nameBase by unfold nameBase; omega), if_neg (show ¬ a < nameEnd by unfold nameEnd; omega),
    if_neg (show ¬ a < ks1Base by unfold ks1Base; omega), if_neg (show ¬ a < k1Base by unfold k1Base; omega),
    if_neg (show ¬ a < k1End by unfold k1End; omega), if_neg (show ¬ a < ks2Base by unfold ks2Base; omega),
    if_neg (show ¬ a < k2Base by unfold k2Base; omega), if_neg (show ¬ a < mtBase by unfold mtBase; omega),
    if_neg (show ¬ a < mtEnd by unfold mtEnd; omega)]
/-- Every address lies in one of the ranges of the map (R63). -/
theorem decodeAddr_ranges (a : Nat) :
    a < 0x00100 ∨ (0x00100 ≤ a ∧ a < 0x00200) ∨ (0x04000 ≤ a ∧ a < 0x05000) ∨ (0x08000 ≤ a ∧ a < 0x09000) ∨
      (0x10000 ≤ a ∧ a < 0x14000) ∨ (0x20000 ≤ a ∧ a < 0x24000) ∨ (0x30000 ≤ a ∧ a < 0x309C0) ∨
      (0x00200 ≤ a ∧ decodeAddr Config.thisHardware a = .reserved) := by
  by_cases h1 : a < 0x00100
  · exact .inl h1
  by_cases h2 : a < 0x00200
  · omega
  by_cases h3 : a < 0x04000
  · exact .inr (.inr (.inr (.inr (.inr (.inr (.inr ⟨by omega, decodeAddr_before_ks1 ⟨by omega, h3⟩⟩))))))
  by_cases h4 : a < 0x05000
  · omega
  by_cases h5 : a < 0x08000
  · exact .inr (.inr (.inr (.inr (.inr (.inr (.inr ⟨by omega, decodeAddr_beyond_ks1 ⟨by omega, h5⟩⟩))))))
  by_cases h6 : a < 0x09000
  · omega
  by_cases h7 : a < 0x0C000
  · exact .inr (.inr (.inr (.inr (.inr (.inr (.inr ⟨by omega, decodeAddr_beyond_k1 ⟨by omega, h7⟩⟩))))))
  by_cases h8 : a < 0x10000
  · exact .inr (.inr (.inr (.inr (.inr (.inr (.inr ⟨by omega, decodeAddr_before_ks2 ⟨by omega, h8⟩⟩))))))
  by_cases h9 : a < 0x14000
  · omega
  by_cases h10 : a < 0x20000
  · exact .inr (.inr (.inr (.inr (.inr (.inr (.inr ⟨by omega, decodeAddr_beyond_ks2 ⟨by omega, h10⟩⟩))))))
  by_cases h11 : a < 0x24000
  · omega
  by_cases h12 : a < 0x30000
  · exact .inr (.inr (.inr (.inr (.inr (.inr (.inr ⟨by omega, decodeAddr_beyond_k2 ⟨by omega, h12⟩⟩))))))
  by_cases h13 : a < 0x309C0
  · omega
  by_cases h14 : a < 0x31000
  · exact .inr (.inr (.inr (.inr (.inr (.inr (.inr ⟨by omega, decodeAddr_beyond_mt ⟨by omega, h14⟩⟩))))))
  · exact .inr (.inr (.inr (.inr (.inr (.inr (.inr ⟨by omega, decodeAddr_last (by omega)⟩))))))

/-- The bytes that belong to an array, in numbers (R63). -/
theorem inArrays_iff (x : Nat) :
    inArrays x = true ↔
      (0x00100 ≤ x ∧ x < 0x00200) ∨ (0x04000 ≤ x ∧ x < 0x05000) ∨ (0x08000 ≤ x ∧ x < 0x09000) ∨
        (0x10000 ≤ x ∧ x < 0x14000) ∨ (0x20000 ≤ x ∧ x < 0x24000) ∨ (0x30000 ≤ x ∧ x < 0x309C0) := by
  simp only [inArrays, Bool.or_eq_true, Bool.and_eq_true, decide_eq_true_eq, or_assoc]
  rfl

/-! ### The register block -/

theorem regTarget_offset (r : Reg) : regTarget (Reg.offset r) = .reg r := by cases r <;> rfl

theorem decodeAddr_offset (r : Reg) : decodeAddr Config.thisHardware (Reg.offset r) = .reg r := by cases r <;> rfl

/-- An offset that is a register's is that register's. -/
theorem ofOffset_eq_some {a : Nat} {r : Reg} (h : Reg.ofOffset a = some r) : a = Reg.offset r := by
  unfold Reg.ofOffset at h
  split at h <;> cases h <;> rfl

/-- What an offset of the register block reaches: nothing, or the register whose offset it is. -/
theorem regTarget_cases (a : Nat) : regTarget a = .reserved ∨ ∃ r, a = Reg.offset r ∧ regTarget a = .reg r := by
  unfold regTarget
  split
  · exact .inr ⟨_, ofOffset_eq_some ‹_›, rfl⟩
  · exact .inl rfl

/-- The offsets above the register map are reserved (R22, R55). -/
theorem decodeAddr_beyond_registers {a : Nat} (h : 0x00050 ≤ a ∧ a < 0x00100) :
    decodeAddr Config.thisHardware a = .reserved := by
  rw [decodeAddr_reg h.2]
  rcases regTarget_cases a with h1 | ⟨r, h1, -⟩
  · exact h1
  · exfalso; cases r <;> simp only [Reg.offset] at h1 <;> omega

/-- Every element that an address reaches is one of its array. -/
theorem decodeAddr_bounds (a : Nat) :
    match decodeAddr Config.thisHardware a with
    | .name q => q < 64
    | .ks1 i => i < 1024
    | .k1 i => i < 1024
    | .ks2 i => i < 4096
    | .k2 i => i < 4096
    | .mt i => i < 624
    | .reg r => a = Reg.offset r
    | .reserved => True := by
  rcases decodeAddr_ranges a with h | h | h | h | h | h | h | h
  · rw [decodeAddr_reg h]
    rcases regTarget_cases a with h1 | ⟨r, h1, h2⟩
    · rw [h1]; trivial
    · rw [h2]; exact h1
  · rw [decodeAddr_name h]; show (a - 0x00100) / 4 < 64; omega
  · rw [decodeAddr_ks1 h]; show (a - 0x04000) / 4 < 1024; omega
  · rw [decodeAddr_k1 h]; show (a - 0x08000) / 4 < 1024; omega
  · rw [decodeAddr_ks2 h]; show (a - 0x10000) / 4 < 4096; omega
  · rw [decodeAddr_k2 h]; show (a - 0x20000) / 4 < 4096; omega
  · rw [decodeAddr_mt h]; show (a - 0x30000) / 4 < 624; omega
  · rw [h.2]; trivial

end Sys2Proof.Machine
end

