-- ==== Sys2Proof/Laws/Decode.lean ====
section
/-! SUPPORT. Decoding and encoding. -/

namespace Sys2Proof

/-- What a word that decodes looks like. -/
theorem decode_ok_iff (w : Word) (i : Instr) :
    decode w = .ok i ↔ reservedField w = 0#24 ∧ opcodeOf (opcodeField w) = some i := by
  unfold decode
  by_cases h : reservedField w = 0#24
  · simp only [h, if_true, true_and]
    cases opcodeOf (opcodeField w) <;> simp
  · simp [h]

/-- A word is its RSV and OPC fields joined (R90). -/
theorem word_of_fields (w : Word) : reservedField w ++ opcodeField w = w := by
  apply BitVec.eq_of_getLsbD_eq
  intro i hi
  simp only [BitVec.getLsbD_append, reservedField, opcodeField, BitVec.getLsbD_extractLsb']
  by_cases h : i < 8
  · simp [h]
  · have h1 : i - 8 < 24 := by omega
    have h2 : 8 + (i - 8) = i := by omega
    simp [h, h1, h2]

/-- The opcode map gives each command its own OPC. -/
theorem opcodeOf_eq_some {c : Byte} {i : Instr} (h : opcodeOf c = some i) : c = (encode i).extractLsb' 0 8 := by
  unfold opcodeOf at h
  split at h <;> first | (cases h; rfl) | cases h

end Sys2Proof
end

