-- ==== Sys2Proof/Laws/Memory.lean ====
section
/-! SUPPORT. What the memory operations do: reading a byte after a store, the canonical form, and words. -/

namespace Sys2Proof.Machine

/-! ### Finding a byte -/

@[simp] theorem find_nil (x : Nat) : Memory.find [] x = none := rfl

theorem find_cons (c : Host.Cell) (m : Memory) (x : Nat) :
    Memory.find (c :: m) x = if c.1 = x then some c.2 else Memory.find m x := rfl

/-- A byte is found in the first of two lists that has it. -/
theorem find_append (m n : Memory) (x : Nat) : Memory.find (m ++ n) x = (Memory.find m x).or (Memory.find n x) := by
  induction m with
  | nil => simp
  | cons c m ih => simp only [List.cons_append, find_cons, ih]; split <;> simp

/-- Keeping the cells of some addresses keeps what is found at them. -/
theorem find_filter (p : Nat → Bool) (m : Memory) (x : Nat) :
    Memory.find (m.filter (fun c => p c.1)) x = if p x then Memory.find m x else none := by
  induction m with
  | nil => simp
  | cons c m ih =>
    simp only [List.filter_cons, find_cons]
    by_cases hx : c.1 = x
    · subst hx; by_cases hp : p c.1 <;> simp [hp, find_cons, ih]
    · by_cases hp : p c.1 <;> simp [hp, find_cons, ih, hx]

/-- What is found in the cells of a run of bytes. -/
theorem find_cellsFrom (a : Nat) (vs : List Byte) (x : Nat) :
    Memory.find (cellsFrom a vs) x = if a ≤ x then vs[x - a]? else none := by
  induction vs generalizing a with
  | nil => simp [cellsFrom]
  | cons v vs ih =>
    simp only [cellsFrom, find_cons, ih]
    by_cases h : a = x
    · subst h; simp
    · by_cases h1 : a + 1 ≤ x
      · have h2 : x - a = (x - (a + 1)) + 1 := by omega
        have h3 : a ≤ x := by omega
        simp [h, h1, h2, h3]
      · have h3 : ¬ a ≤ x := by omega
        simp [h, h1, h3]

theorem find_slice (m : Memory) (lo hi x : Nat) :
    Memory.find (Memory.slice m lo hi) x = if lo ≤ x ∧ x < hi then Memory.find m x else none := by
  have h := find_filter (fun y => decide (lo ≤ y) && decide (y < hi)) m x
  simpa [Memory.slice] using h

/-- Storing bytes says everything about every address: the stored bytes inside, what was there outside. -/
theorem find_store (m : Memory) (a : Nat) (vs : List Byte) (x : Nat) :
    Memory.find (Memory.store m a vs) x = if a ≤ x ∧ x < a + vs.length then vs[x - a]? else Memory.find m x := by
  have h1 := find_filter (fun y => decide (y < a)) m x
  have h2 := find_filter (fun y => decide (a + vs.length ≤ y)) m x
  simp only [Memory.store, find_append, h1, h2, find_cellsFrom]
  by_cases hlo : a ≤ x
  · by_cases hhi : x < a + vs.length
    · have : x - a < vs.length := by omega
      have h3 : ¬ x < a := by omega
      simp [hlo, hhi, h3, this]
    · have h3 : ¬ x < a := by omega
      have h4 : vs.length ≤ x - a := by omega
      have h5 : a + vs.length ≤ x := by omega
      simp [hlo, hhi, h3, h4, h5]
  · have h3 : x < a := by omega
    have h5 : ¬ (a + vs.length ≤ x) := by omega
    simp [hlo, h3, h5]

/-! ### The canonical form -/

theorem cellsFrom_bounds {a : Nat} {vs : List Byte} {c : Host.Cell} (h : c ∈ cellsFrom a vs) :
    a ≤ c.1 ∧ c.1 < a + vs.length := by
  induction vs generalizing a with
  | nil => simp [cellsFrom] at h
  | cons v vs ih =>
    simp only [cellsFrom, List.mem_cons] at h
    rcases h with rfl | h
    · simp
    · have := ih h; simp only [List.length_cons]; omega

theorem cellsFrom_wf (a : Nat) (vs : List Byte) : Memory.wf (cellsFrom a vs) := by
  induction vs generalizing a with
  | nil => simp [cellsFrom]
  | cons v vs ih =>
    refine List.Pairwise.cons (fun c hc => ?_) (ih _)
    have := cellsFrom_bounds hc
    show a < c.1
    omega

/-- A cell after a store is one of the stored ones or was there before. -/
theorem mem_store {m : Memory} {a : Nat} {vs : List Byte} {c : Host.Cell} (h : c ∈ Memory.store m a vs) :
    c ∈ m ∨ (a ≤ c.1 ∧ c.1 < a + vs.length) := by
  simp only [Memory.store, List.mem_append, List.mem_filter] at h
  rcases h with (h | h) | h
  · exact .inl h.1
  · exact .inr (cellsFrom_bounds h)
  · exact .inl h.1

/-- Every store keeps the canonical form. -/
theorem store_wf {m : Memory} (h : Memory.wf m) (a : Nat) (vs : List Byte) : Memory.wf (Memory.store m a vs) := by
  unfold Memory.store
  refine List.pairwise_append.2 ⟨List.pairwise_append.2 ⟨h.filter _, cellsFrom_wf a vs, ?_⟩, h.filter _, ?_⟩
  · intro c hc d hd
    have h1 := (List.mem_filter.1 hc).2
    have h2 := cellsFrom_bounds hd
    simp only [decide_eq_true_eq] at h1
    omega
  · intro c hc d hd
    have h2 := (List.mem_filter.1 hd).2
    simp only [decide_eq_true_eq] at h2
    rcases List.mem_append.1 hc with hc | hc
    · have h1 := (List.mem_filter.1 hc).2
      simp only [decide_eq_true_eq] at h1
      omega
    · have h1 := cellsFrom_bounds hc
      omega

/-- Taking a slice keeps the canonical form. -/
theorem slice_wf {m : Memory} (h : Memory.wf m) (lo hi : Nat) : Memory.wf (Memory.slice m lo hi) := h.filter _

/-- The memory of `State.reset` is in canonical form. -/
theorem reset_mem_wf : Memory.wf State.reset.mem := List.Pairwise.nil

/-! ### Bytes of words -/

@[simp] theorem bytesOfWord_length (w : Word) : (bytesOfWord w).length = 4 := rfl

theorem bytesOfWords_cons (w : Word) (ws : List Word) : bytesOfWords (w :: ws) = bytesOfWord w ++ bytesOfWords ws := rfl

@[simp] theorem bytesOfWords_length (ws : List Word) : (bytesOfWords ws).length = 4 * ws.length := by
  induction ws with
  | nil => rfl
  | cons w ws ih => rw [bytesOfWords_cons, List.length_append, ih, bytesOfWord_length, List.length_cons]; omega

/-- Byte 4i+k of a list of words is byte k of word i. -/
theorem bytesOfWords_getElem? (ws : List Word) (i k : Nat) (hk : k < 4) :
    (bytesOfWords ws)[4 * i + k]? = (ws[i]?).map (fun w => w.extractLsb' (8 * k) 8) := by
  induction ws generalizing i with
  | nil => simp [bytesOfWords]
  | cons w ws ih =>
    rw [bytesOfWords_cons]
    cases i with
    | zero =>
      rw [List.getElem?_append_left (by simpa using hk)]
      interval_cases k <;> rfl
    | succ i =>
      rw [List.getElem?_append_right (by simp; omega)]
      have : 4 * (i + 1) + k - (bytesOfWord w).length = 4 * i + k := by simp; omega
      rw [this, ih]; simp

/-- A word is made of its bytes. -/
theorem wordOfBytes_extract (w : Word) :
    wordOfBytes (w.extractLsb' 0 8) (w.extractLsb' 8 8) (w.extractLsb' 16 8) (w.extractLsb' 24 8) = w := by
  apply BitVec.eq_of_getLsbD_eq
  intro i hi
  simp only [wordOfBytes, BitVec.getLsbD_append, BitVec.getLsbD_extractLsb']
  have : i < 32 := hi
  by_cases h1 : i < 8
  · simp [h1]
  by_cases h2 : i < 16
  · have a1 : i - 8 < 8 := by omega
    have a2 : 8 + (i - 8) = i := by omega
    simp [h1, a1, a2]
  by_cases h3 : i < 24
  · have a0 : ¬ i - 8 < 8 := by omega
    have a1 : i - 8 - 8 < 8 := by omega
    have a2 : 16 + (i - 8 - 8) = i := by omega
    simp [h1, a0, a1, a2]
  · have a0 : ¬ i - 8 < 8 := by omega
    have a1 : ¬ i - 8 - 8 < 8 := by omega
    have a3 : i - 8 - 8 - 8 < 8 := by omega
    have a2 : 24 + (i - 8 - 8 - 8) = i := by omega
    simp [h1, a0, a1, a2, a3]

/-! ### Bytes and words of the state -/

theorem byteIn_slice (e : Nat) (m : Memory) {lo hi x : Nat} (h : lo ≤ x ∧ x < hi) :
    byteIn e (Memory.slice m lo hi) x = byteIn e m x := by
  simp [byteIn, find_slice, h]

/-- Loading words gives the words at the addresses, one by one. -/
theorem loadWords_eq (s : State) (base n : Nat) :
    s.loadWords base n = (List.range n).map (fun i => s.word (base + 4 * i)) := by
  apply List.map_congr_left
  intro i hi
  have hi : i < n := List.mem_range.1 hi
  simp only [wordIn, State.word]
  rw [byteIn_slice _ _ (by omega), byteIn_slice _ _ (by omega), byteIn_slice _ _ (by omega),
    byteIn_slice _ _ (by omega)]

@[simp] theorem loadWords_length (s : State) (base n : Nat) : (s.loadWords base n).length = n := by
  simp [State.loadWords]

theorem loadWords_getD (s : State) (base n i : Nat) (d : Word) (h : i < n) :
    (s.loadWords base n).getD i d = s.word (base + 4 * i) := by
  rw [loadWords_eq]; simp [List.getD, h]

/-- A byte outside the words stored is unchanged. -/
theorem byte_storeWords_outside (s : State) (base : Nat) (ws : List Word) (x : Nat)
    (h : x < base ∨ base + 4 * ws.length ≤ x) : (s.storeWords base ws).byte x = s.byte x := by
  have : ¬ (base ≤ x ∧ x < base + 4 * ws.length) := by omega
  simp only [State.byte, State.storeWords, State.setMem, byteIn, find_store, bytesOfWords_length, if_neg this]

/-- The byte k of word i of the words stored. -/
theorem byte_storeWords_inside (s : State) (base : Nat) (ws : List Word) (i k : Nat) (hi : i < ws.length) (hk : k < 4) :
    (s.storeWords base ws).byte (base + 4 * i + k) = (ws[i]).extractLsb' (8 * k) 8 := by
  have h1 : base ≤ base + 4 * i + k ∧ base + 4 * i + k < base + 4 * ws.length := by omega
  have h2 : base + 4 * i + k - base = 4 * i + k := by omega
  simp only [State.byte, State.storeWords, State.setMem, byteIn, find_store, bytesOfWords_length, if_pos h1, h2,
    bytesOfWords_getElem? ws i k hk]
  simp [hi]

/-- A word of the state is made of its bytes. -/
theorem word_eq (s : State) (a : Nat) :
    s.word a = wordOfBytes (s.byte a) (s.byte (a + 1)) (s.byte (a + 2)) (s.byte (a + 3)) := rfl

/-- Two states with the same four bytes have the same word. -/
theorem word_congr {s t : State} {a : Nat} (h : ∀ k < 4, t.byte (a + k) = s.byte (a + k)) : t.word a = s.word a := by
  rw [word_eq, word_eq, ← Nat.add_zero a, h 0 (by omega), Nat.add_zero, h 1 (by omega), h 2 (by omega), h 3 (by omega)]

/-- A word stored is read back. -/
theorem word_storeWords_inside (s : State) (base : Nat) (ws : List Word) (i : Nat) (hi : i < ws.length) :
    (s.storeWords base ws).word (base + 4 * i) = ws[i] := by
  rw [word_eq]
  have h0 := byte_storeWords_inside s base ws i 0 hi (by omega)
  have h1 := byte_storeWords_inside s base ws i 1 hi (by omega)
  have h2 := byte_storeWords_inside s base ws i 2 hi (by omega)
  have h3 := byte_storeWords_inside s base ws i 3 hi (by omega)
  rw [Nat.add_zero] at h0
  rw [h0, h1, h2, h3]
  exact wordOfBytes_extract _

/-- A word outside the words stored is unchanged. -/
theorem word_storeWords_outside (s : State) (base : Nat) (ws : List Word) (a : Nat)
    (h : a + 4 ≤ base ∨ base + 4 * ws.length ≤ a) : (s.storeWords base ws).word a = s.word a :=
  word_congr fun k hk => byte_storeWords_outside s base ws (a + k) (by omega)

/-- Storing words keeps the canonical form. -/
theorem storeWords_wf {s : State} (h : Memory.wf s.mem) (base : Nat) (ws : List Word) :
    Memory.wf (s.storeWords base ws).mem := store_wf h _ _

end Sys2Proof.Machine
end

