-- ==== Sys2Proof/Laws/State.lean ====
section
/-! SUPPORT. One lemma per field per update of the state: what the update leaves in the field. -/

namespace Sys2Proof.Machine

/-! ### `State.setMem` -/

@[simp] theorem setMem_busy (s : State) (m : Memory) : (s.setMem m).busy = s.busy := rfl
@[simp] theorem setMem_prngValid (s : State) (m : Memory) : (s.setMem m).prngValid = s.prngValid := rfl
@[simp] theorem setMem_fkeyValid (s : State) (m : Memory) : (s.setMem m).fkeyValid = s.fkeyValid := rfl
@[simp] theorem setMem_keysCopied (s : State) (m : Memory) : (s.setMem m).keysCopied = s.keysCopied := rfl
@[simp] theorem setMem_keysReady (s : State) (m : Memory) : (s.setMem m).keysReady = s.keysReady := rfl
@[simp] theorem setMem_streamActive (s : State) (m : Memory) : (s.setMem m).streamActive = s.streamActive := rfl
@[simp] theorem setMem_emit (s : State) (m : Memory) : (s.setMem m).emit = s.emit := rfl
@[simp] theorem setMem_err (s : State) (m : Memory) : (s.setMem m).err = s.err := rfl
@[simp] theorem setMem_arg0 (s : State) (m : Memory) : (s.setMem m).arg0 = s.arg0 := rfl
@[simp] theorem setMem_result (s : State) (m : Memory) : (s.setMem m).result = s.result := rfl
@[simp] theorem setMem_a (s : State) (m : Memory) : (s.setMem m).a = s.a := rfl
@[simp] theorem setMem_b (s : State) (m : Memory) : (s.setMem m).b = s.b := rfl
@[simp] theorem setMem_seed (s : State) (m : Memory) : (s.setMem m).seed = s.seed := rfl
@[simp] theorem setMem_nameLen (s : State) (m : Memory) : (s.setMem m).nameLen = s.nameLen := rfl
@[simp] theorem setMem_key1Len (s : State) (m : Memory) : (s.setMem m).key1Len = s.key1Len := rfl
@[simp] theorem setMem_key2Len (s : State) (m : Memory) : (s.setMem m).key2Len = s.key2Len := rfl
@[simp] theorem setMem_fkey0 (s : State) (m : Memory) : (s.setMem m).fkey0 = s.fkey0 := rfl
@[simp] theorem setMem_fkey1 (s : State) (m : Memory) : (s.setMem m).fkey1 = s.fkey1 := rfl
@[simp] theorem setMem_fkey2 (s : State) (m : Memory) : (s.setMem m).fkey2 = s.fkey2 := rfl
@[simp] theorem setMem_fkey3 (s : State) (m : Memory) : (s.setMem m).fkey3 = s.fkey3 := rfl
@[simp] theorem setMem_mti (s : State) (m : Memory) : (s.setMem m).mti = s.mti := rfl
@[simp] theorem setMem_pairIdx (s : State) (m : Memory) : (s.setMem m).pairIdx = s.pairIdx := rfl
@[simp] theorem setMem_pairsLeft (s : State) (m : Memory) : (s.setMem m).pairsLeft = s.pairsLeft := rfl
@[simp] theorem setMem_k1CurLen (s : State) (m : Memory) : (s.setMem m).k1CurLen = s.k1CurLen := rfl
@[simp] theorem setMem_k2CurLen (s : State) (m : Memory) : (s.setMem m).k2CurLen = s.k2CurLen := rfl
@[simp] theorem setMem_inflight (s : State) (m : Memory) : (s.setMem m).inflight = s.inflight := rfl
@[simp] theorem setMem_mem (s : State) (m : Memory) : (s.setMem m).mem = m := rfl
@[simp] theorem setMem_agenda (s : State) (m : Memory) : (s.setMem m).agenda = s.agenda := rfl
@[simp] theorem setMem_reads (s : State) (m : Memory) : (s.setMem m).reads = s.reads := rfl
@[simp] theorem setMem_output (s : State) (m : Memory) : (s.setMem m).output = s.output := rfl
@[simp] theorem setMem_draws (s : State) (m : Memory) : (s.setMem m).draws = s.draws := rfl
@[simp] theorem setMem_epoch (s : State) (m : Memory) : (s.setMem m).epoch = s.epoch := rfl

/-! ### `State.setAgenda` -/

@[simp] theorem setAgenda_busy (s : State) (es : List Event) : (s.setAgenda es).busy = s.busy := rfl
@[simp] theorem setAgenda_prngValid (s : State) (es : List Event) : (s.setAgenda es).prngValid = s.prngValid := rfl
@[simp] theorem setAgenda_fkeyValid (s : State) (es : List Event) : (s.setAgenda es).fkeyValid = s.fkeyValid := rfl
@[simp] theorem setAgenda_keysCopied (s : State) (es : List Event) : (s.setAgenda es).keysCopied = s.keysCopied := rfl
@[simp] theorem setAgenda_keysReady (s : State) (es : List Event) : (s.setAgenda es).keysReady = s.keysReady := rfl
@[simp] theorem setAgenda_streamActive (s : State) (es : List Event) :
    (s.setAgenda es).streamActive = s.streamActive := rfl
@[simp] theorem setAgenda_emit (s : State) (es : List Event) : (s.setAgenda es).emit = s.emit := rfl
@[simp] theorem setAgenda_err (s : State) (es : List Event) : (s.setAgenda es).err = s.err := rfl
@[simp] theorem setAgenda_arg0 (s : State) (es : List Event) : (s.setAgenda es).arg0 = s.arg0 := rfl
@[simp] theorem setAgenda_result (s : State) (es : List Event) : (s.setAgenda es).result = s.result := rfl
@[simp] theorem setAgenda_a (s : State) (es : List Event) : (s.setAgenda es).a = s.a := rfl
@[simp] theorem setAgenda_b (s : State) (es : List Event) : (s.setAgenda es).b = s.b := rfl
@[simp] theorem setAgenda_seed (s : State) (es : List Event) : (s.setAgenda es).seed = s.seed := rfl
@[simp] theorem setAgenda_nameLen (s : State) (es : List Event) : (s.setAgenda es).nameLen = s.nameLen := rfl
@[simp] theorem setAgenda_key1Len (s : State) (es : List Event) : (s.setAgenda es).key1Len = s.key1Len := rfl
@[simp] theorem setAgenda_key2Len (s : State) (es : List Event) : (s.setAgenda es).key2Len = s.key2Len := rfl
@[simp] theorem setAgenda_fkey0 (s : State) (es : List Event) : (s.setAgenda es).fkey0 = s.fkey0 := rfl
@[simp] theorem setAgenda_fkey1 (s : State) (es : List Event) : (s.setAgenda es).fkey1 = s.fkey1 := rfl
@[simp] theorem setAgenda_fkey2 (s : State) (es : List Event) : (s.setAgenda es).fkey2 = s.fkey2 := rfl
@[simp] theorem setAgenda_fkey3 (s : State) (es : List Event) : (s.setAgenda es).fkey3 = s.fkey3 := rfl
@[simp] theorem setAgenda_mti (s : State) (es : List Event) : (s.setAgenda es).mti = s.mti := rfl
@[simp] theorem setAgenda_pairIdx (s : State) (es : List Event) : (s.setAgenda es).pairIdx = s.pairIdx := rfl
@[simp] theorem setAgenda_pairsLeft (s : State) (es : List Event) : (s.setAgenda es).pairsLeft = s.pairsLeft := rfl
@[simp] theorem setAgenda_k1CurLen (s : State) (es : List Event) : (s.setAgenda es).k1CurLen = s.k1CurLen := rfl
@[simp] theorem setAgenda_k2CurLen (s : State) (es : List Event) : (s.setAgenda es).k2CurLen = s.k2CurLen := rfl
@[simp] theorem setAgenda_inflight (s : State) (es : List Event) : (s.setAgenda es).inflight = s.inflight := rfl
@[simp] theorem setAgenda_mem (s : State) (es : List Event) : (s.setAgenda es).mem = s.mem := rfl
@[simp] theorem setAgenda_agenda (s : State) (es : List Event) : (s.setAgenda es).agenda = es := rfl
@[simp] theorem setAgenda_reads (s : State) (es : List Event) : (s.setAgenda es).reads = s.reads := rfl
@[simp] theorem setAgenda_output (s : State) (es : List Event) : (s.setAgenda es).output = s.output := rfl
@[simp] theorem setAgenda_draws (s : State) (es : List Event) : (s.setAgenda es).draws = s.draws := rfl
@[simp] theorem setAgenda_epoch (s : State) (es : List Event) : (s.setAgenda es).epoch = s.epoch := rfl

/-! ### `State.answer` -/

@[simp] theorem answer_busy (s : State) (v : Word) : (s.answer v).busy = s.busy := rfl
@[simp] theorem answer_prngValid (s : State) (v : Word) : (s.answer v).prngValid = s.prngValid := rfl
@[simp] theorem answer_fkeyValid (s : State) (v : Word) : (s.answer v).fkeyValid = s.fkeyValid := rfl
@[simp] theorem answer_keysCopied (s : State) (v : Word) : (s.answer v).keysCopied = s.keysCopied := rfl
@[simp] theorem answer_keysReady (s : State) (v : Word) : (s.answer v).keysReady = s.keysReady := rfl
@[simp] theorem answer_streamActive (s : State) (v : Word) : (s.answer v).streamActive = s.streamActive := rfl
@[simp] theorem answer_emit (s : State) (v : Word) : (s.answer v).emit = s.emit := rfl
@[simp] theorem answer_err (s : State) (v : Word) : (s.answer v).err = s.err := rfl
@[simp] theorem answer_arg0 (s : State) (v : Word) : (s.answer v).arg0 = s.arg0 := rfl
@[simp] theorem answer_result (s : State) (v : Word) : (s.answer v).result = s.result := rfl
@[simp] theorem answer_a (s : State) (v : Word) : (s.answer v).a = s.a := rfl
@[simp] theorem answer_b (s : State) (v : Word) : (s.answer v).b = s.b := rfl
@[simp] theorem answer_seed (s : State) (v : Word) : (s.answer v).seed = s.seed := rfl
@[simp] theorem answer_nameLen (s : State) (v : Word) : (s.answer v).nameLen = s.nameLen := rfl
@[simp] theorem answer_key1Len (s : State) (v : Word) : (s.answer v).key1Len = s.key1Len := rfl
@[simp] theorem answer_key2Len (s : State) (v : Word) : (s.answer v).key2Len = s.key2Len := rfl
@[simp] theorem answer_fkey0 (s : State) (v : Word) : (s.answer v).fkey0 = s.fkey0 := rfl
@[simp] theorem answer_fkey1 (s : State) (v : Word) : (s.answer v).fkey1 = s.fkey1 := rfl
@[simp] theorem answer_fkey2 (s : State) (v : Word) : (s.answer v).fkey2 = s.fkey2 := rfl
@[simp] theorem answer_fkey3 (s : State) (v : Word) : (s.answer v).fkey3 = s.fkey3 := rfl
@[simp] theorem answer_mti (s : State) (v : Word) : (s.answer v).mti = s.mti := rfl
@[simp] theorem answer_pairIdx (s : State) (v : Word) : (s.answer v).pairIdx = s.pairIdx := rfl
@[simp] theorem answer_pairsLeft (s : State) (v : Word) : (s.answer v).pairsLeft = s.pairsLeft := rfl
@[simp] theorem answer_k1CurLen (s : State) (v : Word) : (s.answer v).k1CurLen = s.k1CurLen := rfl
@[simp] theorem answer_k2CurLen (s : State) (v : Word) : (s.answer v).k2CurLen = s.k2CurLen := rfl
@[simp] theorem answer_inflight (s : State) (v : Word) : (s.answer v).inflight = s.inflight := rfl
@[simp] theorem answer_mem (s : State) (v : Word) : (s.answer v).mem = s.mem := rfl
@[simp] theorem answer_agenda (s : State) (v : Word) : (s.answer v).agenda = s.agenda := rfl
@[simp] theorem answer_reads (s : State) (v : Word) : (s.answer v).reads = v :: s.reads := rfl
@[simp] theorem answer_output (s : State) (v : Word) : (s.answer v).output = s.output := rfl
@[simp] theorem answer_draws (s : State) (v : Word) : (s.answer v).draws = s.draws := rfl
@[simp] theorem answer_epoch (s : State) (v : Word) : (s.answer v).epoch = s.epoch := rfl

/-! ### `State.answerFree` -/

@[simp] theorem answerFree_busy (s : State) : (s.answerFree).busy = s.busy := rfl
@[simp] theorem answerFree_prngValid (s : State) : (s.answerFree).prngValid = s.prngValid := rfl
@[simp] theorem answerFree_fkeyValid (s : State) : (s.answerFree).fkeyValid = s.fkeyValid := rfl
@[simp] theorem answerFree_keysCopied (s : State) : (s.answerFree).keysCopied = s.keysCopied := rfl
@[simp] theorem answerFree_keysReady (s : State) : (s.answerFree).keysReady = s.keysReady := rfl
@[simp] theorem answerFree_streamActive (s : State) : (s.answerFree).streamActive = s.streamActive := rfl
@[simp] theorem answerFree_emit (s : State) : (s.answerFree).emit = s.emit := rfl
@[simp] theorem answerFree_err (s : State) : (s.answerFree).err = s.err := rfl
@[simp] theorem answerFree_arg0 (s : State) : (s.answerFree).arg0 = s.arg0 := rfl
@[simp] theorem answerFree_result (s : State) : (s.answerFree).result = s.result := rfl
@[simp] theorem answerFree_a (s : State) : (s.answerFree).a = s.a := rfl
@[simp] theorem answerFree_b (s : State) : (s.answerFree).b = s.b := rfl
@[simp] theorem answerFree_seed (s : State) : (s.answerFree).seed = s.seed := rfl
@[simp] theorem answerFree_nameLen (s : State) : (s.answerFree).nameLen = s.nameLen := rfl
@[simp] theorem answerFree_key1Len (s : State) : (s.answerFree).key1Len = s.key1Len := rfl
@[simp] theorem answerFree_key2Len (s : State) : (s.answerFree).key2Len = s.key2Len := rfl
@[simp] theorem answerFree_fkey0 (s : State) : (s.answerFree).fkey0 = s.fkey0 := rfl
@[simp] theorem answerFree_fkey1 (s : State) : (s.answerFree).fkey1 = s.fkey1 := rfl
@[simp] theorem answerFree_fkey2 (s : State) : (s.answerFree).fkey2 = s.fkey2 := rfl
@[simp] theorem answerFree_fkey3 (s : State) : (s.answerFree).fkey3 = s.fkey3 := rfl
@[simp] theorem answerFree_mti (s : State) : (s.answerFree).mti = s.mti := rfl
@[simp] theorem answerFree_pairIdx (s : State) : (s.answerFree).pairIdx = s.pairIdx := rfl
@[simp] theorem answerFree_pairsLeft (s : State) : (s.answerFree).pairsLeft = s.pairsLeft := rfl
@[simp] theorem answerFree_k1CurLen (s : State) : (s.answerFree).k1CurLen = s.k1CurLen := rfl
@[simp] theorem answerFree_k2CurLen (s : State) : (s.answerFree).k2CurLen = s.k2CurLen := rfl
@[simp] theorem answerFree_inflight (s : State) : (s.answerFree).inflight = s.inflight := rfl
@[simp] theorem answerFree_mem (s : State) : (s.answerFree).mem = s.mem := rfl
@[simp] theorem answerFree_agenda (s : State) : (s.answerFree).agenda = s.agenda := rfl
@[simp] theorem answerFree_reads (s : State) : (s.answerFree).reads = Config.busyRead s.draws :: s.reads := rfl
@[simp] theorem answerFree_output (s : State) : (s.answerFree).output = s.output := rfl
@[simp] theorem answerFree_draws (s : State) : (s.answerFree).draws = s.draws + 1 := rfl
@[simp] theorem answerFree_epoch (s : State) : (s.answerFree).epoch = s.epoch := rfl

/-! ### `State.raiseErr` -/

@[simp] theorem raiseErr_busy (s : State) (c : ErrCode) : (s.raiseErr c).busy = s.busy := rfl
@[simp] theorem raiseErr_prngValid (s : State) (c : ErrCode) : (s.raiseErr c).prngValid = s.prngValid := rfl
@[simp] theorem raiseErr_fkeyValid (s : State) (c : ErrCode) : (s.raiseErr c).fkeyValid = s.fkeyValid := rfl
@[simp] theorem raiseErr_keysCopied (s : State) (c : ErrCode) : (s.raiseErr c).keysCopied = s.keysCopied := rfl
@[simp] theorem raiseErr_keysReady (s : State) (c : ErrCode) : (s.raiseErr c).keysReady = s.keysReady := rfl
@[simp] theorem raiseErr_streamActive (s : State) (c : ErrCode) : (s.raiseErr c).streamActive = s.streamActive := rfl
@[simp] theorem raiseErr_emit (s : State) (c : ErrCode) : (s.raiseErr c).emit = s.emit := rfl
@[simp] theorem raiseErr_err (s : State) (c : ErrCode) :
    (s.raiseErr c).err = if s.err = 0#4 then c.code else s.err := rfl
@[simp] theorem raiseErr_arg0 (s : State) (c : ErrCode) : (s.raiseErr c).arg0 = s.arg0 := rfl
@[simp] theorem raiseErr_result (s : State) (c : ErrCode) : (s.raiseErr c).result = s.result := rfl
@[simp] theorem raiseErr_a (s : State) (c : ErrCode) : (s.raiseErr c).a = s.a := rfl
@[simp] theorem raiseErr_b (s : State) (c : ErrCode) : (s.raiseErr c).b = s.b := rfl
@[simp] theorem raiseErr_seed (s : State) (c : ErrCode) : (s.raiseErr c).seed = s.seed := rfl
@[simp] theorem raiseErr_nameLen (s : State) (c : ErrCode) : (s.raiseErr c).nameLen = s.nameLen := rfl
@[simp] theorem raiseErr_key1Len (s : State) (c : ErrCode) : (s.raiseErr c).key1Len = s.key1Len := rfl
@[simp] theorem raiseErr_key2Len (s : State) (c : ErrCode) : (s.raiseErr c).key2Len = s.key2Len := rfl
@[simp] theorem raiseErr_fkey0 (s : State) (c : ErrCode) : (s.raiseErr c).fkey0 = s.fkey0 := rfl
@[simp] theorem raiseErr_fkey1 (s : State) (c : ErrCode) : (s.raiseErr c).fkey1 = s.fkey1 := rfl
@[simp] theorem raiseErr_fkey2 (s : State) (c : ErrCode) : (s.raiseErr c).fkey2 = s.fkey2 := rfl
@[simp] theorem raiseErr_fkey3 (s : State) (c : ErrCode) : (s.raiseErr c).fkey3 = s.fkey3 := rfl
@[simp] theorem raiseErr_mti (s : State) (c : ErrCode) : (s.raiseErr c).mti = s.mti := rfl
@[simp] theorem raiseErr_pairIdx (s : State) (c : ErrCode) : (s.raiseErr c).pairIdx = s.pairIdx := rfl
@[simp] theorem raiseErr_pairsLeft (s : State) (c : ErrCode) : (s.raiseErr c).pairsLeft = s.pairsLeft := rfl
@[simp] theorem raiseErr_k1CurLen (s : State) (c : ErrCode) : (s.raiseErr c).k1CurLen = s.k1CurLen := rfl
@[simp] theorem raiseErr_k2CurLen (s : State) (c : ErrCode) : (s.raiseErr c).k2CurLen = s.k2CurLen := rfl
@[simp] theorem raiseErr_inflight (s : State) (c : ErrCode) : (s.raiseErr c).inflight = s.inflight := rfl
@[simp] theorem raiseErr_mem (s : State) (c : ErrCode) : (s.raiseErr c).mem = s.mem := rfl
@[simp] theorem raiseErr_agenda (s : State) (c : ErrCode) : (s.raiseErr c).agenda = s.agenda := rfl
@[simp] theorem raiseErr_reads (s : State) (c : ErrCode) : (s.raiseErr c).reads = s.reads := rfl
@[simp] theorem raiseErr_output (s : State) (c : ErrCode) : (s.raiseErr c).output = s.output := rfl
@[simp] theorem raiseErr_draws (s : State) (c : ErrCode) : (s.raiseErr c).draws = s.draws := rfl
@[simp] theorem raiseErr_epoch (s : State) (c : ErrCode) : (s.raiseErr c).epoch = s.epoch := rfl

/-! ### `State.clearErr` -/

@[simp] theorem clearErr_busy (s : State) : (s.clearErr).busy = s.busy := rfl
@[simp] theorem clearErr_prngValid (s : State) : (s.clearErr).prngValid = s.prngValid := rfl
@[simp] theorem clearErr_fkeyValid (s : State) : (s.clearErr).fkeyValid = s.fkeyValid := rfl
@[simp] theorem clearErr_keysCopied (s : State) : (s.clearErr).keysCopied = s.keysCopied := rfl
@[simp] theorem clearErr_keysReady (s : State) : (s.clearErr).keysReady = s.keysReady := rfl
@[simp] theorem clearErr_streamActive (s : State) : (s.clearErr).streamActive = s.streamActive := rfl
@[simp] theorem clearErr_emit (s : State) : (s.clearErr).emit = s.emit := rfl
@[simp] theorem clearErr_err (s : State) : (s.clearErr).err = 0 := rfl
@[simp] theorem clearErr_arg0 (s : State) : (s.clearErr).arg0 = s.arg0 := rfl
@[simp] theorem clearErr_result (s : State) : (s.clearErr).result = s.result := rfl
@[simp] theorem clearErr_a (s : State) : (s.clearErr).a = s.a := rfl
@[simp] theorem clearErr_b (s : State) : (s.clearErr).b = s.b := rfl
@[simp] theorem clearErr_seed (s : State) : (s.clearErr).seed = s.seed := rfl
@[simp] theorem clearErr_nameLen (s : State) : (s.clearErr).nameLen = s.nameLen := rfl
@[simp] theorem clearErr_key1Len (s : State) : (s.clearErr).key1Len = s.key1Len := rfl
@[simp] theorem clearErr_key2Len (s : State) : (s.clearErr).key2Len = s.key2Len := rfl
@[simp] theorem clearErr_fkey0 (s : State) : (s.clearErr).fkey0 = s.fkey0 := rfl
@[simp] theorem clearErr_fkey1 (s : State) : (s.clearErr).fkey1 = s.fkey1 := rfl
@[simp] theorem clearErr_fkey2 (s : State) : (s.clearErr).fkey2 = s.fkey2 := rfl
@[simp] theorem clearErr_fkey3 (s : State) : (s.clearErr).fkey3 = s.fkey3 := rfl
@[simp] theorem clearErr_mti (s : State) : (s.clearErr).mti = s.mti := rfl
@[simp] theorem clearErr_pairIdx (s : State) : (s.clearErr).pairIdx = s.pairIdx := rfl
@[simp] theorem clearErr_pairsLeft (s : State) : (s.clearErr).pairsLeft = s.pairsLeft := rfl
@[simp] theorem clearErr_k1CurLen (s : State) : (s.clearErr).k1CurLen = s.k1CurLen := rfl
@[simp] theorem clearErr_k2CurLen (s : State) : (s.clearErr).k2CurLen = s.k2CurLen := rfl
@[simp] theorem clearErr_inflight (s : State) : (s.clearErr).inflight = s.inflight := rfl
@[simp] theorem clearErr_mem (s : State) : (s.clearErr).mem = s.mem := rfl
@[simp] theorem clearErr_agenda (s : State) : (s.clearErr).agenda = s.agenda := rfl
@[simp] theorem clearErr_reads (s : State) : (s.clearErr).reads = s.reads := rfl
@[simp] theorem clearErr_output (s : State) : (s.clearErr).output = s.output := rfl
@[simp] theorem clearErr_draws (s : State) : (s.clearErr).draws = s.draws := rfl
@[simp] theorem clearErr_epoch (s : State) : (s.clearErr).epoch = s.epoch := rfl

/-! ### `State.accept` -/

@[simp] theorem accept_busy (s : State) (i : Instr) : (s.accept i).busy = true := rfl
@[simp] theorem accept_prngValid (s : State) (i : Instr) : (s.accept i).prngValid = s.prngValid := rfl
@[simp] theorem accept_fkeyValid (s : State) (i : Instr) : (s.accept i).fkeyValid = s.fkeyValid := rfl
@[simp] theorem accept_keysCopied (s : State) (i : Instr) : (s.accept i).keysCopied = s.keysCopied := rfl
@[simp] theorem accept_keysReady (s : State) (i : Instr) : (s.accept i).keysReady = s.keysReady := rfl
@[simp] theorem accept_streamActive (s : State) (i : Instr) : (s.accept i).streamActive = s.streamActive := rfl
@[simp] theorem accept_emit (s : State) (i : Instr) : (s.accept i).emit = s.emit := rfl
@[simp] theorem accept_err (s : State) (i : Instr) : (s.accept i).err = s.err := rfl
@[simp] theorem accept_arg0 (s : State) (i : Instr) : (s.accept i).arg0 = s.arg0 := rfl
@[simp] theorem accept_result (s : State) (i : Instr) : (s.accept i).result = s.result := rfl
@[simp] theorem accept_a (s : State) (i : Instr) : (s.accept i).a = s.a := rfl
@[simp] theorem accept_b (s : State) (i : Instr) : (s.accept i).b = s.b := rfl
@[simp] theorem accept_seed (s : State) (i : Instr) : (s.accept i).seed = s.seed := rfl
@[simp] theorem accept_nameLen (s : State) (i : Instr) : (s.accept i).nameLen = s.nameLen := rfl
@[simp] theorem accept_key1Len (s : State) (i : Instr) : (s.accept i).key1Len = s.key1Len := rfl
@[simp] theorem accept_key2Len (s : State) (i : Instr) : (s.accept i).key2Len = s.key2Len := rfl
@[simp] theorem accept_fkey0 (s : State) (i : Instr) : (s.accept i).fkey0 = s.fkey0 := rfl
@[simp] theorem accept_fkey1 (s : State) (i : Instr) : (s.accept i).fkey1 = s.fkey1 := rfl
@[simp] theorem accept_fkey2 (s : State) (i : Instr) : (s.accept i).fkey2 = s.fkey2 := rfl
@[simp] theorem accept_fkey3 (s : State) (i : Instr) : (s.accept i).fkey3 = s.fkey3 := rfl
@[simp] theorem accept_mti (s : State) (i : Instr) : (s.accept i).mti = s.mti := rfl
@[simp] theorem accept_pairIdx (s : State) (i : Instr) : (s.accept i).pairIdx = s.pairIdx := rfl
@[simp] theorem accept_pairsLeft (s : State) (i : Instr) : (s.accept i).pairsLeft = s.pairsLeft := rfl
@[simp] theorem accept_k1CurLen (s : State) (i : Instr) : (s.accept i).k1CurLen = s.k1CurLen := rfl
@[simp] theorem accept_k2CurLen (s : State) (i : Instr) : (s.accept i).k2CurLen = s.k2CurLen := rfl
@[simp] theorem accept_inflight (s : State) (i : Instr) : (s.accept i).inflight = some i := rfl
@[simp] theorem accept_mem (s : State) (i : Instr) : (s.accept i).mem = s.mem := rfl
@[simp] theorem accept_agenda (s : State) (i : Instr) : (s.accept i).agenda = s.agenda := rfl
@[simp] theorem accept_reads (s : State) (i : Instr) : (s.accept i).reads = s.reads := rfl
@[simp] theorem accept_output (s : State) (i : Instr) : (s.accept i).output = s.output := rfl
@[simp] theorem accept_draws (s : State) (i : Instr) : (s.accept i).draws = s.draws := rfl
@[simp] theorem accept_epoch (s : State) (i : Instr) : (s.accept i).epoch = s.epoch := rfl

/-! ### `State.retire` -/

@[simp] theorem retire_busy (s : State) : (s.retire).busy = false := rfl
@[simp] theorem retire_prngValid (s : State) : (s.retire).prngValid = s.prngValid := rfl
@[simp] theorem retire_fkeyValid (s : State) : (s.retire).fkeyValid = s.fkeyValid := rfl
@[simp] theorem retire_keysCopied (s : State) : (s.retire).keysCopied = s.keysCopied := rfl
@[simp] theorem retire_keysReady (s : State) : (s.retire).keysReady = s.keysReady := rfl
@[simp] theorem retire_streamActive (s : State) : (s.retire).streamActive = s.streamActive := rfl
@[simp] theorem retire_emit (s : State) : (s.retire).emit = s.emit := rfl
@[simp] theorem retire_err (s : State) : (s.retire).err = s.err := rfl
@[simp] theorem retire_arg0 (s : State) : (s.retire).arg0 = s.arg0 := rfl
@[simp] theorem retire_result (s : State) : (s.retire).result = s.result := rfl
@[simp] theorem retire_a (s : State) : (s.retire).a = s.a := rfl
@[simp] theorem retire_b (s : State) : (s.retire).b = s.b := rfl
@[simp] theorem retire_seed (s : State) : (s.retire).seed = s.seed := rfl
@[simp] theorem retire_nameLen (s : State) : (s.retire).nameLen = s.nameLen := rfl
@[simp] theorem retire_key1Len (s : State) : (s.retire).key1Len = s.key1Len := rfl
@[simp] theorem retire_key2Len (s : State) : (s.retire).key2Len = s.key2Len := rfl
@[simp] theorem retire_fkey0 (s : State) : (s.retire).fkey0 = s.fkey0 := rfl
@[simp] theorem retire_fkey1 (s : State) : (s.retire).fkey1 = s.fkey1 := rfl
@[simp] theorem retire_fkey2 (s : State) : (s.retire).fkey2 = s.fkey2 := rfl
@[simp] theorem retire_fkey3 (s : State) : (s.retire).fkey3 = s.fkey3 := rfl
@[simp] theorem retire_mti (s : State) : (s.retire).mti = s.mti := rfl
@[simp] theorem retire_pairIdx (s : State) : (s.retire).pairIdx = s.pairIdx := rfl
@[simp] theorem retire_pairsLeft (s : State) : (s.retire).pairsLeft = s.pairsLeft := rfl
@[simp] theorem retire_k1CurLen (s : State) : (s.retire).k1CurLen = s.k1CurLen := rfl
@[simp] theorem retire_k2CurLen (s : State) : (s.retire).k2CurLen = s.k2CurLen := rfl
@[simp] theorem retire_inflight (s : State) : (s.retire).inflight = none := rfl
@[simp] theorem retire_mem (s : State) : (s.retire).mem = s.mem := rfl
@[simp] theorem retire_agenda (s : State) : (s.retire).agenda = s.agenda := rfl
@[simp] theorem retire_reads (s : State) : (s.retire).reads = s.reads := rfl
@[simp] theorem retire_output (s : State) : (s.retire).output = s.output := rfl
@[simp] theorem retire_draws (s : State) : (s.retire).draws = s.draws := rfl
@[simp] theorem retire_epoch (s : State) : (s.retire).epoch = s.epoch := rfl

/-! ### `State.streamAbort` -/

@[simp] theorem streamAbort_busy (s : State) : (s.streamAbort).busy = s.busy := rfl
@[simp] theorem streamAbort_prngValid (s : State) : (s.streamAbort).prngValid = s.prngValid := rfl
@[simp] theorem streamAbort_fkeyValid (s : State) : (s.streamAbort).fkeyValid = s.fkeyValid := rfl
@[simp] theorem streamAbort_keysCopied (s : State) : (s.streamAbort).keysCopied = s.keysCopied := rfl
@[simp] theorem streamAbort_keysReady (s : State) : (s.streamAbort).keysReady = s.keysReady := rfl
@[simp] theorem streamAbort_streamActive (s : State) : (s.streamAbort).streamActive = false := rfl
@[simp] theorem streamAbort_emit (s : State) : (s.streamAbort).emit = false := rfl
@[simp] theorem streamAbort_err (s : State) : (s.streamAbort).err = s.err := rfl
@[simp] theorem streamAbort_arg0 (s : State) : (s.streamAbort).arg0 = s.arg0 := rfl
@[simp] theorem streamAbort_result (s : State) : (s.streamAbort).result = s.result := rfl
@[simp] theorem streamAbort_a (s : State) : (s.streamAbort).a = s.a := rfl
@[simp] theorem streamAbort_b (s : State) : (s.streamAbort).b = s.b := rfl
@[simp] theorem streamAbort_seed (s : State) : (s.streamAbort).seed = s.seed := rfl
@[simp] theorem streamAbort_nameLen (s : State) : (s.streamAbort).nameLen = s.nameLen := rfl
@[simp] theorem streamAbort_key1Len (s : State) : (s.streamAbort).key1Len = s.key1Len := rfl
@[simp] theorem streamAbort_key2Len (s : State) : (s.streamAbort).key2Len = s.key2Len := rfl
@[simp] theorem streamAbort_fkey0 (s : State) : (s.streamAbort).fkey0 = s.fkey0 := rfl
@[simp] theorem streamAbort_fkey1 (s : State) : (s.streamAbort).fkey1 = s.fkey1 := rfl
@[simp] theorem streamAbort_fkey2 (s : State) : (s.streamAbort).fkey2 = s.fkey2 := rfl
@[simp] theorem streamAbort_fkey3 (s : State) : (s.streamAbort).fkey3 = s.fkey3 := rfl
@[simp] theorem streamAbort_mti (s : State) : (s.streamAbort).mti = s.mti := rfl
@[simp] theorem streamAbort_pairIdx (s : State) : (s.streamAbort).pairIdx = s.pairIdx := rfl
@[simp] theorem streamAbort_pairsLeft (s : State) : (s.streamAbort).pairsLeft = 0 := rfl
@[simp] theorem streamAbort_k1CurLen (s : State) : (s.streamAbort).k1CurLen = s.k1CurLen := rfl
@[simp] theorem streamAbort_k2CurLen (s : State) : (s.streamAbort).k2CurLen = s.k2CurLen := rfl
@[simp] theorem streamAbort_inflight (s : State) : (s.streamAbort).inflight = s.inflight := rfl
@[simp] theorem streamAbort_mem (s : State) : (s.streamAbort).mem = s.mem := rfl
@[simp] theorem streamAbort_agenda (s : State) : (s.streamAbort).agenda = s.agenda := rfl
@[simp] theorem streamAbort_reads (s : State) : (s.streamAbort).reads = s.reads := rfl
@[simp] theorem streamAbort_output (s : State) : (s.streamAbort).output = s.output := rfl
@[simp] theorem streamAbort_draws (s : State) : (s.streamAbort).draws = s.draws := rfl
@[simp] theorem streamAbort_epoch (s : State) : (s.streamAbort).epoch = s.epoch := rfl

/-! ### `State.setPair` -/

@[simp] theorem setPair_busy (s : State) (p : Word × Word) : (s.setPair p).busy = s.busy := rfl
@[simp] theorem setPair_prngValid (s : State) (p : Word × Word) : (s.setPair p).prngValid = s.prngValid := rfl
@[simp] theorem setPair_fkeyValid (s : State) (p : Word × Word) : (s.setPair p).fkeyValid = s.fkeyValid := rfl
@[simp] theorem setPair_keysCopied (s : State) (p : Word × Word) : (s.setPair p).keysCopied = s.keysCopied := rfl
@[simp] theorem setPair_keysReady (s : State) (p : Word × Word) : (s.setPair p).keysReady = s.keysReady := rfl
@[simp] theorem setPair_streamActive (s : State) (p : Word × Word) : (s.setPair p).streamActive = s.streamActive := rfl
@[simp] theorem setPair_emit (s : State) (p : Word × Word) : (s.setPair p).emit = s.emit := rfl
@[simp] theorem setPair_err (s : State) (p : Word × Word) : (s.setPair p).err = s.err := rfl
@[simp] theorem setPair_arg0 (s : State) (p : Word × Word) : (s.setPair p).arg0 = s.arg0 := rfl
@[simp] theorem setPair_result (s : State) (p : Word × Word) : (s.setPair p).result = s.result := rfl
@[simp] theorem setPair_a (s : State) (p : Word × Word) : (s.setPair p).a = p.1 := rfl
@[simp] theorem setPair_b (s : State) (p : Word × Word) : (s.setPair p).b = p.2 := rfl
@[simp] theorem setPair_seed (s : State) (p : Word × Word) : (s.setPair p).seed = s.seed := rfl
@[simp] theorem setPair_nameLen (s : State) (p : Word × Word) : (s.setPair p).nameLen = s.nameLen := rfl
@[simp] theorem setPair_key1Len (s : State) (p : Word × Word) : (s.setPair p).key1Len = s.key1Len := rfl
@[simp] theorem setPair_key2Len (s : State) (p : Word × Word) : (s.setPair p).key2Len = s.key2Len := rfl
@[simp] theorem setPair_fkey0 (s : State) (p : Word × Word) : (s.setPair p).fkey0 = s.fkey0 := rfl
@[simp] theorem setPair_fkey1 (s : State) (p : Word × Word) : (s.setPair p).fkey1 = s.fkey1 := rfl
@[simp] theorem setPair_fkey2 (s : State) (p : Word × Word) : (s.setPair p).fkey2 = s.fkey2 := rfl
@[simp] theorem setPair_fkey3 (s : State) (p : Word × Word) : (s.setPair p).fkey3 = s.fkey3 := rfl
@[simp] theorem setPair_mti (s : State) (p : Word × Word) : (s.setPair p).mti = s.mti := rfl
@[simp] theorem setPair_pairIdx (s : State) (p : Word × Word) : (s.setPair p).pairIdx = s.pairIdx := rfl
@[simp] theorem setPair_pairsLeft (s : State) (p : Word × Word) : (s.setPair p).pairsLeft = s.pairsLeft := rfl
@[simp] theorem setPair_k1CurLen (s : State) (p : Word × Word) : (s.setPair p).k1CurLen = s.k1CurLen := rfl
@[simp] theorem setPair_k2CurLen (s : State) (p : Word × Word) : (s.setPair p).k2CurLen = s.k2CurLen := rfl
@[simp] theorem setPair_inflight (s : State) (p : Word × Word) : (s.setPair p).inflight = s.inflight := rfl
@[simp] theorem setPair_mem (s : State) (p : Word × Word) : (s.setPair p).mem = s.mem := rfl
@[simp] theorem setPair_agenda (s : State) (p : Word × Word) : (s.setPair p).agenda = s.agenda := rfl
@[simp] theorem setPair_reads (s : State) (p : Word × Word) : (s.setPair p).reads = s.reads := rfl
@[simp] theorem setPair_output (s : State) (p : Word × Word) : (s.setPair p).output = s.output := rfl
@[simp] theorem setPair_draws (s : State) (p : Word × Word) : (s.setPair p).draws = s.draws := rfl
@[simp] theorem setPair_epoch (s : State) (p : Word × Word) : (s.setPair p).epoch = s.epoch := rfl

/-! ### `State.storeWords` -/

@[simp] theorem storeWords_busy (s : State) (base : Nat) (ws : List Word) : (s.storeWords base ws).busy = s.busy := rfl
@[simp] theorem storeWords_prngValid (s : State) (base : Nat) (ws : List Word) :
    (s.storeWords base ws).prngValid = s.prngValid := rfl
@[simp] theorem storeWords_fkeyValid (s : State) (base : Nat) (ws : List Word) :
    (s.storeWords base ws).fkeyValid = s.fkeyValid := rfl
@[simp] theorem storeWords_keysCopied (s : State) (base : Nat) (ws : List Word) :
    (s.storeWords base ws).keysCopied = s.keysCopied := rfl
@[simp] theorem storeWords_keysReady (s : State) (base : Nat) (ws : List Word) :
    (s.storeWords base ws).keysReady = s.keysReady := rfl
@[simp] theorem storeWords_streamActive (s : State) (base : Nat) (ws : List Word) :
    (s.storeWords base ws).streamActive = s.streamActive := rfl
@[simp] theorem storeWords_emit (s : State) (base : Nat) (ws : List Word) : (s.storeWords base ws).emit = s.emit := rfl
@[simp] theorem storeWords_err (s : State) (base : Nat) (ws : List Word) : (s.storeWords base ws).err = s.err := rfl
@[simp] theorem storeWords_arg0 (s : State) (base : Nat) (ws : List Word) : (s.storeWords base ws).arg0 = s.arg0 := rfl
@[simp] theorem storeWords_result (s : State) (base : Nat) (ws : List Word) :
    (s.storeWords base ws).result = s.result := rfl
@[simp] theorem storeWords_a (s : State) (base : Nat) (ws : List Word) : (s.storeWords base ws).a = s.a := rfl
@[simp] theorem storeWords_b (s : State) (base : Nat) (ws : List Word) : (s.storeWords base ws).b = s.b := rfl
@[simp] theorem storeWords_seed (s : State) (base : Nat) (ws : List Word) : (s.storeWords base ws).seed = s.seed := rfl
@[simp] theorem storeWords_nameLen (s : State) (base : Nat) (ws : List Word) :
    (s.storeWords base ws).nameLen = s.nameLen := rfl
@[simp] theorem storeWords_key1Len (s : State) (base : Nat) (ws : List Word) :
    (s.storeWords base ws).key1Len = s.key1Len := rfl
@[simp] theorem storeWords_key2Len (s : State) (base : Nat) (ws : List Word) :
    (s.storeWords base ws).key2Len = s.key2Len := rfl
@[simp] theorem storeWords_fkey0 (s : State) (base : Nat) (ws : List Word) :
    (s.storeWords base ws).fkey0 = s.fkey0 := rfl
@[simp] theorem storeWords_fkey1 (s : State) (base : Nat) (ws : List Word) :
    (s.storeWords base ws).fkey1 = s.fkey1 := rfl
@[simp] theorem storeWords_fkey2 (s : State) (base : Nat) (ws : List Word) :
    (s.storeWords base ws).fkey2 = s.fkey2 := rfl
@[simp] theorem storeWords_fkey3 (s : State) (base : Nat) (ws : List Word) :
    (s.storeWords base ws).fkey3 = s.fkey3 := rfl
@[simp] theorem storeWords_mti (s : State) (base : Nat) (ws : List Word) : (s.storeWords base ws).mti = s.mti := rfl
@[simp] theorem storeWords_pairIdx (s : State) (base : Nat) (ws : List Word) :
    (s.storeWords base ws).pairIdx = s.pairIdx := rfl
@[simp] theorem storeWords_pairsLeft (s : State) (base : Nat) (ws : List Word) :
    (s.storeWords base ws).pairsLeft = s.pairsLeft := rfl
@[simp] theorem storeWords_k1CurLen (s : State) (base : Nat) (ws : List Word) :
    (s.storeWords base ws).k1CurLen = s.k1CurLen := rfl
@[simp] theorem storeWords_k2CurLen (s : State) (base : Nat) (ws : List Word) :
    (s.storeWords base ws).k2CurLen = s.k2CurLen := rfl
@[simp] theorem storeWords_inflight (s : State) (base : Nat) (ws : List Word) :
    (s.storeWords base ws).inflight = s.inflight := rfl
@[simp] theorem storeWords_mem (s : State) (base : Nat) (ws : List Word) :
    (s.storeWords base ws).mem = Memory.store s.mem base (bytesOfWords ws) := rfl
@[simp] theorem storeWords_agenda (s : State) (base : Nat) (ws : List Word) :
    (s.storeWords base ws).agenda = s.agenda := rfl
@[simp] theorem storeWords_reads (s : State) (base : Nat) (ws : List Word) :
    (s.storeWords base ws).reads = s.reads := rfl
@[simp] theorem storeWords_output (s : State) (base : Nat) (ws : List Word) :
    (s.storeWords base ws).output = s.output := rfl
@[simp] theorem storeWords_draws (s : State) (base : Nat) (ws : List Word) :
    (s.storeWords base ws).draws = s.draws := rfl
@[simp] theorem storeWords_epoch (s : State) (base : Nat) (ws : List Word) :
    (s.storeWords base ws).epoch = s.epoch := rfl

/-! ### `State.storeMT` -/

@[simp] theorem storeMT_busy (s : State) (ws : List Word) : (s.storeMT ws).busy = s.busy := rfl
@[simp] theorem storeMT_prngValid (s : State) (ws : List Word) : (s.storeMT ws).prngValid = s.prngValid := rfl
@[simp] theorem storeMT_fkeyValid (s : State) (ws : List Word) : (s.storeMT ws).fkeyValid = s.fkeyValid := rfl
@[simp] theorem storeMT_keysCopied (s : State) (ws : List Word) : (s.storeMT ws).keysCopied = s.keysCopied := rfl
@[simp] theorem storeMT_keysReady (s : State) (ws : List Word) : (s.storeMT ws).keysReady = s.keysReady := rfl
@[simp] theorem storeMT_streamActive (s : State) (ws : List Word) : (s.storeMT ws).streamActive = s.streamActive := rfl
@[simp] theorem storeMT_emit (s : State) (ws : List Word) : (s.storeMT ws).emit = s.emit := rfl
@[simp] theorem storeMT_err (s : State) (ws : List Word) : (s.storeMT ws).err = s.err := rfl
@[simp] theorem storeMT_arg0 (s : State) (ws : List Word) : (s.storeMT ws).arg0 = s.arg0 := rfl
@[simp] theorem storeMT_result (s : State) (ws : List Word) : (s.storeMT ws).result = s.result := rfl
@[simp] theorem storeMT_a (s : State) (ws : List Word) : (s.storeMT ws).a = s.a := rfl
@[simp] theorem storeMT_b (s : State) (ws : List Word) : (s.storeMT ws).b = s.b := rfl
@[simp] theorem storeMT_seed (s : State) (ws : List Word) : (s.storeMT ws).seed = s.seed := rfl
@[simp] theorem storeMT_nameLen (s : State) (ws : List Word) : (s.storeMT ws).nameLen = s.nameLen := rfl
@[simp] theorem storeMT_key1Len (s : State) (ws : List Word) : (s.storeMT ws).key1Len = s.key1Len := rfl
@[simp] theorem storeMT_key2Len (s : State) (ws : List Word) : (s.storeMT ws).key2Len = s.key2Len := rfl
@[simp] theorem storeMT_fkey0 (s : State) (ws : List Word) : (s.storeMT ws).fkey0 = s.fkey0 := rfl
@[simp] theorem storeMT_fkey1 (s : State) (ws : List Word) : (s.storeMT ws).fkey1 = s.fkey1 := rfl
@[simp] theorem storeMT_fkey2 (s : State) (ws : List Word) : (s.storeMT ws).fkey2 = s.fkey2 := rfl
@[simp] theorem storeMT_fkey3 (s : State) (ws : List Word) : (s.storeMT ws).fkey3 = s.fkey3 := rfl
@[simp] theorem storeMT_mti (s : State) (ws : List Word) : (s.storeMT ws).mti = s.mti := rfl
@[simp] theorem storeMT_pairIdx (s : State) (ws : List Word) : (s.storeMT ws).pairIdx = s.pairIdx := rfl
@[simp] theorem storeMT_pairsLeft (s : State) (ws : List Word) : (s.storeMT ws).pairsLeft = s.pairsLeft := rfl
@[simp] theorem storeMT_k1CurLen (s : State) (ws : List Word) : (s.storeMT ws).k1CurLen = s.k1CurLen := rfl
@[simp] theorem storeMT_k2CurLen (s : State) (ws : List Word) : (s.storeMT ws).k2CurLen = s.k2CurLen := rfl
@[simp] theorem storeMT_inflight (s : State) (ws : List Word) : (s.storeMT ws).inflight = s.inflight := rfl
@[simp] theorem storeMT_mem (s : State) (ws : List Word) :
    (s.storeMT ws).mem = Memory.store s.mem mtBase (bytesOfWords (ws.take mtWords)) := rfl
@[simp] theorem storeMT_agenda (s : State) (ws : List Word) : (s.storeMT ws).agenda = s.agenda := rfl
@[simp] theorem storeMT_reads (s : State) (ws : List Word) : (s.storeMT ws).reads = s.reads := rfl
@[simp] theorem storeMT_output (s : State) (ws : List Word) : (s.storeMT ws).output = s.output := rfl
@[simp] theorem storeMT_draws (s : State) (ws : List Word) : (s.storeMT ws).draws = s.draws := rfl
@[simp] theorem storeMT_epoch (s : State) (ws : List Word) : (s.storeMT ws).epoch = s.epoch := rfl

/-! ### `State.storeK1` -/

@[simp] theorem storeK1_busy (s : State) (p : Config.Params) (ws : List Word) : (s.storeK1 p ws).busy = s.busy := rfl
@[simp] theorem storeK1_prngValid (s : State) (p : Config.Params) (ws : List Word) :
    (s.storeK1 p ws).prngValid = s.prngValid := rfl
@[simp] theorem storeK1_fkeyValid (s : State) (p : Config.Params) (ws : List Word) :
    (s.storeK1 p ws).fkeyValid = s.fkeyValid := rfl
@[simp] theorem storeK1_keysCopied (s : State) (p : Config.Params) (ws : List Word) :
    (s.storeK1 p ws).keysCopied = s.keysCopied := rfl
@[simp] theorem storeK1_keysReady (s : State) (p : Config.Params) (ws : List Word) :
    (s.storeK1 p ws).keysReady = s.keysReady := rfl
@[simp] theorem storeK1_streamActive (s : State) (p : Config.Params) (ws : List Word) :
    (s.storeK1 p ws).streamActive = s.streamActive := rfl
@[simp] theorem storeK1_emit (s : State) (p : Config.Params) (ws : List Word) : (s.storeK1 p ws).emit = s.emit := rfl
@[simp] theorem storeK1_err (s : State) (p : Config.Params) (ws : List Word) : (s.storeK1 p ws).err = s.err := rfl
@[simp] theorem storeK1_arg0 (s : State) (p : Config.Params) (ws : List Word) : (s.storeK1 p ws).arg0 = s.arg0 := rfl
@[simp] theorem storeK1_result (s : State) (p : Config.Params) (ws : List Word) :
    (s.storeK1 p ws).result = s.result := rfl
@[simp] theorem storeK1_a (s : State) (p : Config.Params) (ws : List Word) : (s.storeK1 p ws).a = s.a := rfl
@[simp] theorem storeK1_b (s : State) (p : Config.Params) (ws : List Word) : (s.storeK1 p ws).b = s.b := rfl
@[simp] theorem storeK1_seed (s : State) (p : Config.Params) (ws : List Word) : (s.storeK1 p ws).seed = s.seed := rfl
@[simp] theorem storeK1_nameLen (s : State) (p : Config.Params) (ws : List Word) :
    (s.storeK1 p ws).nameLen = s.nameLen := rfl
@[simp] theorem storeK1_key1Len (s : State) (p : Config.Params) (ws : List Word) :
    (s.storeK1 p ws).key1Len = s.key1Len := rfl
@[simp] theorem storeK1_key2Len (s : State) (p : Config.Params) (ws : List Word) :
    (s.storeK1 p ws).key2Len = s.key2Len := rfl
@[simp] theorem storeK1_fkey0 (s : State) (p : Config.Params) (ws : List Word) : (s.storeK1 p ws).fkey0 = s.fkey0 := rfl
@[simp] theorem storeK1_fkey1 (s : State) (p : Config.Params) (ws : List Word) : (s.storeK1 p ws).fkey1 = s.fkey1 := rfl
@[simp] theorem storeK1_fkey2 (s : State) (p : Config.Params) (ws : List Word) : (s.storeK1 p ws).fkey2 = s.fkey2 := rfl
@[simp] theorem storeK1_fkey3 (s : State) (p : Config.Params) (ws : List Word) : (s.storeK1 p ws).fkey3 = s.fkey3 := rfl
@[simp] theorem storeK1_mti (s : State) (p : Config.Params) (ws : List Word) : (s.storeK1 p ws).mti = s.mti := rfl
@[simp] theorem storeK1_pairIdx (s : State) (p : Config.Params) (ws : List Word) :
    (s.storeK1 p ws).pairIdx = s.pairIdx := rfl
@[simp] theorem storeK1_pairsLeft (s : State) (p : Config.Params) (ws : List Word) :
    (s.storeK1 p ws).pairsLeft = s.pairsLeft := rfl
@[simp] theorem storeK1_k1CurLen (s : State) (p : Config.Params) (ws : List Word) :
    (s.storeK1 p ws).k1CurLen = s.k1CurLen := rfl
@[simp] theorem storeK1_k2CurLen (s : State) (p : Config.Params) (ws : List Word) :
    (s.storeK1 p ws).k2CurLen = s.k2CurLen := rfl
@[simp] theorem storeK1_inflight (s : State) (p : Config.Params) (ws : List Word) :
    (s.storeK1 p ws).inflight = s.inflight := rfl
@[simp] theorem storeK1_mem (s : State) (p : Config.Params) (ws : List Word) :
    (s.storeK1 p ws).mem = Memory.store s.mem k1Base (bytesOfWords (ws.take p.k1Max)) := rfl
@[simp] theorem storeK1_agenda (s : State) (p : Config.Params) (ws : List Word) :
    (s.storeK1 p ws).agenda = s.agenda := rfl
@[simp] theorem storeK1_reads (s : State) (p : Config.Params) (ws : List Word) : (s.storeK1 p ws).reads = s.reads := rfl
@[simp] theorem storeK1_output (s : State) (p : Config.Params) (ws : List Word) :
    (s.storeK1 p ws).output = s.output := rfl
@[simp] theorem storeK1_draws (s : State) (p : Config.Params) (ws : List Word) : (s.storeK1 p ws).draws = s.draws := rfl
@[simp] theorem storeK1_epoch (s : State) (p : Config.Params) (ws : List Word) : (s.storeK1 p ws).epoch = s.epoch := rfl

/-! ### `State.storeK2` -/

@[simp] theorem storeK2_busy (s : State) (p : Config.Params) (ws : List Word) : (s.storeK2 p ws).busy = s.busy := rfl
@[simp] theorem storeK2_prngValid (s : State) (p : Config.Params) (ws : List Word) :
    (s.storeK2 p ws).prngValid = s.prngValid := rfl
@[simp] theorem storeK2_fkeyValid (s : State) (p : Config.Params) (ws : List Word) :
    (s.storeK2 p ws).fkeyValid = s.fkeyValid := rfl
@[simp] theorem storeK2_keysCopied (s : State) (p : Config.Params) (ws : List Word) :
    (s.storeK2 p ws).keysCopied = s.keysCopied := rfl
@[simp] theorem storeK2_keysReady (s : State) (p : Config.Params) (ws : List Word) :
    (s.storeK2 p ws).keysReady = s.keysReady := rfl
@[simp] theorem storeK2_streamActive (s : State) (p : Config.Params) (ws : List Word) :
    (s.storeK2 p ws).streamActive = s.streamActive := rfl
@[simp] theorem storeK2_emit (s : State) (p : Config.Params) (ws : List Word) : (s.storeK2 p ws).emit = s.emit := rfl
@[simp] theorem storeK2_err (s : State) (p : Config.Params) (ws : List Word) : (s.storeK2 p ws).err = s.err := rfl
@[simp] theorem storeK2_arg0 (s : State) (p : Config.Params) (ws : List Word) : (s.storeK2 p ws).arg0 = s.arg0 := rfl
@[simp] theorem storeK2_result (s : State) (p : Config.Params) (ws : List Word) :
    (s.storeK2 p ws).result = s.result := rfl
@[simp] theorem storeK2_a (s : State) (p : Config.Params) (ws : List Word) : (s.storeK2 p ws).a = s.a := rfl
@[simp] theorem storeK2_b (s : State) (p : Config.Params) (ws : List Word) : (s.storeK2 p ws).b = s.b := rfl
@[simp] theorem storeK2_seed (s : State) (p : Config.Params) (ws : List Word) : (s.storeK2 p ws).seed = s.seed := rfl
@[simp] theorem storeK2_nameLen (s : State) (p : Config.Params) (ws : List Word) :
    (s.storeK2 p ws).nameLen = s.nameLen := rfl
@[simp] theorem storeK2_key1Len (s : State) (p : Config.Params) (ws : List Word) :
    (s.storeK2 p ws).key1Len = s.key1Len := rfl
@[simp] theorem storeK2_key2Len (s : State) (p : Config.Params) (ws : List Word) :
    (s.storeK2 p ws).key2Len = s.key2Len := rfl
@[simp] theorem storeK2_fkey0 (s : State) (p : Config.Params) (ws : List Word) : (s.storeK2 p ws).fkey0 = s.fkey0 := rfl
@[simp] theorem storeK2_fkey1 (s : State) (p : Config.Params) (ws : List Word) : (s.storeK2 p ws).fkey1 = s.fkey1 := rfl
@[simp] theorem storeK2_fkey2 (s : State) (p : Config.Params) (ws : List Word) : (s.storeK2 p ws).fkey2 = s.fkey2 := rfl
@[simp] theorem storeK2_fkey3 (s : State) (p : Config.Params) (ws : List Word) : (s.storeK2 p ws).fkey3 = s.fkey3 := rfl
@[simp] theorem storeK2_mti (s : State) (p : Config.Params) (ws : List Word) : (s.storeK2 p ws).mti = s.mti := rfl
@[simp] theorem storeK2_pairIdx (s : State) (p : Config.Params) (ws : List Word) :
    (s.storeK2 p ws).pairIdx = s.pairIdx := rfl
@[simp] theorem storeK2_pairsLeft (s : State) (p : Config.Params) (ws : List Word) :
    (s.storeK2 p ws).pairsLeft = s.pairsLeft := rfl
@[simp] theorem storeK2_k1CurLen (s : State) (p : Config.Params) (ws : List Word) :
    (s.storeK2 p ws).k1CurLen = s.k1CurLen := rfl
@[simp] theorem storeK2_k2CurLen (s : State) (p : Config.Params) (ws : List Word) :
    (s.storeK2 p ws).k2CurLen = s.k2CurLen := rfl
@[simp] theorem storeK2_inflight (s : State) (p : Config.Params) (ws : List Word) :
    (s.storeK2 p ws).inflight = s.inflight := rfl
@[simp] theorem storeK2_mem (s : State) (p : Config.Params) (ws : List Word) :
    (s.storeK2 p ws).mem = Memory.store s.mem k2Base (bytesOfWords (ws.take p.k2Max)) := rfl
@[simp] theorem storeK2_agenda (s : State) (p : Config.Params) (ws : List Word) :
    (s.storeK2 p ws).agenda = s.agenda := rfl
@[simp] theorem storeK2_reads (s : State) (p : Config.Params) (ws : List Word) : (s.storeK2 p ws).reads = s.reads := rfl
@[simp] theorem storeK2_output (s : State) (p : Config.Params) (ws : List Word) :
    (s.storeK2 p ws).output = s.output := rfl
@[simp] theorem storeK2_draws (s : State) (p : Config.Params) (ws : List Word) : (s.storeK2 p ws).draws = s.draws := rfl
@[simp] theorem storeK2_epoch (s : State) (p : Config.Params) (ws : List Word) : (s.storeK2 p ws).epoch = s.epoch := rfl

/-! ### `State.onReset` -/

@[simp] theorem onReset_busy (s : State) : s.onReset.busy = false := rfl
@[simp] theorem onReset_prngValid (s : State) : s.onReset.prngValid = false := rfl
@[simp] theorem onReset_fkeyValid (s : State) : s.onReset.fkeyValid = false := rfl
@[simp] theorem onReset_keysCopied (s : State) : s.onReset.keysCopied = false := rfl
@[simp] theorem onReset_keysReady (s : State) : s.onReset.keysReady = false := rfl
@[simp] theorem onReset_streamActive (s : State) : s.onReset.streamActive = false := rfl
@[simp] theorem onReset_emit (s : State) : s.onReset.emit = false := rfl
@[simp] theorem onReset_err (s : State) : s.onReset.err = 0 := rfl
@[simp] theorem onReset_arg0 (s : State) : s.onReset.arg0 = 0 := rfl
@[simp] theorem onReset_result (s : State) : s.onReset.result = 0 := rfl
@[simp] theorem onReset_a (s : State) : s.onReset.a = 0 := rfl
@[simp] theorem onReset_b (s : State) : s.onReset.b = 0 := rfl
@[simp] theorem onReset_seed (s : State) : s.onReset.seed = 0 := rfl
@[simp] theorem onReset_nameLen (s : State) : s.onReset.nameLen = 0 := rfl
@[simp] theorem onReset_key1Len (s : State) : s.onReset.key1Len = 0 := rfl
@[simp] theorem onReset_key2Len (s : State) : s.onReset.key2Len = 0 := rfl
@[simp] theorem onReset_fkey0 (s : State) : s.onReset.fkey0 = 0 := rfl
@[simp] theorem onReset_fkey1 (s : State) : s.onReset.fkey1 = 0 := rfl
@[simp] theorem onReset_fkey2 (s : State) : s.onReset.fkey2 = 0 := rfl
@[simp] theorem onReset_fkey3 (s : State) : s.onReset.fkey3 = 0 := rfl
@[simp] theorem onReset_mti (s : State) : s.onReset.mti = 0 := rfl
@[simp] theorem onReset_pairIdx (s : State) : s.onReset.pairIdx = 0 := rfl
@[simp] theorem onReset_pairsLeft (s : State) : s.onReset.pairsLeft = 0 := rfl
@[simp] theorem onReset_k1CurLen (s : State) : s.onReset.k1CurLen = 0 := rfl
@[simp] theorem onReset_k2CurLen (s : State) : s.onReset.k2CurLen = 0 := rfl
@[simp] theorem onReset_inflight (s : State) : s.onReset.inflight = none := rfl
@[simp] theorem onReset_mem (s : State) : s.onReset.mem = [] := rfl
@[simp] theorem onReset_agenda (s : State) : s.onReset.agenda = s.agenda := rfl
@[simp] theorem onReset_reads (s : State) : s.onReset.reads = s.reads := rfl
@[simp] theorem onReset_output (s : State) : s.onReset.output = s.output := rfl
@[simp] theorem onReset_draws (s : State) : s.onReset.draws = s.draws := rfl
@[simp] theorem onReset_epoch (s : State) : s.onReset.epoch = s.epoch + 1 := rfl

/-! ### `State.drawNext` and `State.mtSeed` -/

@[simp] theorem twistIfDue_busy (s : State) : s.twistIfDue.busy = s.busy := by
  unfold State.twistIfDue; split <;> rfl
@[simp] theorem twistIfDue_prngValid (s : State) : s.twistIfDue.prngValid = s.prngValid := by
  unfold State.twistIfDue; split <;> rfl
@[simp] theorem twistIfDue_fkeyValid (s : State) : s.twistIfDue.fkeyValid = s.fkeyValid := by
  unfold State.twistIfDue; split <;> rfl
@[simp] theorem twistIfDue_keysCopied (s : State) : s.twistIfDue.keysCopied = s.keysCopied := by
  unfold State.twistIfDue; split <;> rfl
@[simp] theorem twistIfDue_keysReady (s : State) : s.twistIfDue.keysReady = s.keysReady := by
  unfold State.twistIfDue; split <;> rfl
@[simp] theorem twistIfDue_streamActive (s : State) : s.twistIfDue.streamActive = s.streamActive := by
  unfold State.twistIfDue; split <;> rfl
@[simp] theorem twistIfDue_emit (s : State) : s.twistIfDue.emit = s.emit := by
  unfold State.twistIfDue; split <;> rfl
@[simp] theorem twistIfDue_err (s : State) : s.twistIfDue.err = s.err := by
  unfold State.twistIfDue; split <;> rfl
@[simp] theorem twistIfDue_arg0 (s : State) : s.twistIfDue.arg0 = s.arg0 := by
  unfold State.twistIfDue; split <;> rfl
@[simp] theorem twistIfDue_result (s : State) : s.twistIfDue.result = s.result := by
  unfold State.twistIfDue; split <;> rfl
@[simp] theorem twistIfDue_a (s : State) : s.twistIfDue.a = s.a := by
  unfold State.twistIfDue; split <;> rfl
@[simp] theorem twistIfDue_b (s : State) : s.twistIfDue.b = s.b := by
  unfold State.twistIfDue; split <;> rfl
@[simp] theorem twistIfDue_seed (s : State) : s.twistIfDue.seed = s.seed := by
  unfold State.twistIfDue; split <;> rfl
@[simp] theorem twistIfDue_nameLen (s : State) : s.twistIfDue.nameLen = s.nameLen := by
  unfold State.twistIfDue; split <;> rfl
@[simp] theorem twistIfDue_key1Len (s : State) : s.twistIfDue.key1Len = s.key1Len := by
  unfold State.twistIfDue; split <;> rfl
@[simp] theorem twistIfDue_key2Len (s : State) : s.twistIfDue.key2Len = s.key2Len := by
  unfold State.twistIfDue; split <;> rfl
@[simp] theorem twistIfDue_fkey0 (s : State) : s.twistIfDue.fkey0 = s.fkey0 := by
  unfold State.twistIfDue; split <;> rfl
@[simp] theorem twistIfDue_fkey1 (s : State) : s.twistIfDue.fkey1 = s.fkey1 := by
  unfold State.twistIfDue; split <;> rfl
@[simp] theorem twistIfDue_fkey2 (s : State) : s.twistIfDue.fkey2 = s.fkey2 := by
  unfold State.twistIfDue; split <;> rfl
@[simp] theorem twistIfDue_fkey3 (s : State) : s.twistIfDue.fkey3 = s.fkey3 := by
  unfold State.twistIfDue; split <;> rfl
@[simp] theorem twistIfDue_pairIdx (s : State) : s.twistIfDue.pairIdx = s.pairIdx := by
  unfold State.twistIfDue; split <;> rfl
@[simp] theorem twistIfDue_pairsLeft (s : State) : s.twistIfDue.pairsLeft = s.pairsLeft := by
  unfold State.twistIfDue; split <;> rfl
@[simp] theorem twistIfDue_k1CurLen (s : State) : s.twistIfDue.k1CurLen = s.k1CurLen := by
  unfold State.twistIfDue; split <;> rfl
@[simp] theorem twistIfDue_k2CurLen (s : State) : s.twistIfDue.k2CurLen = s.k2CurLen := by
  unfold State.twistIfDue; split <;> rfl
@[simp] theorem twistIfDue_inflight (s : State) : s.twistIfDue.inflight = s.inflight := by
  unfold State.twistIfDue; split <;> rfl
@[simp] theorem twistIfDue_agenda (s : State) : s.twistIfDue.agenda = s.agenda := by
  unfold State.twistIfDue; split <;> rfl
@[simp] theorem twistIfDue_reads (s : State) : s.twistIfDue.reads = s.reads := by
  unfold State.twistIfDue; split <;> rfl
@[simp] theorem twistIfDue_output (s : State) : s.twistIfDue.output = s.output := by
  unfold State.twistIfDue; split <;> rfl
@[simp] theorem twistIfDue_draws (s : State) : s.twistIfDue.draws = s.draws := by
  unfold State.twistIfDue; split <;> rfl
@[simp] theorem twistIfDue_epoch (s : State) : s.twistIfDue.epoch = s.epoch := by
  unfold State.twistIfDue; split <;> rfl
@[simp] theorem twistIfDue_mti (s : State) : s.twistIfDue.mti = s.mti := by
  unfold State.twistIfDue; split <;> rfl
@[simp] theorem drawNext_busy (s : State) : s.drawNext.busy = s.busy := twistIfDue_busy s
@[simp] theorem mtSeed_busy (s : State) (v : Word) : (s.mtSeed v).busy = s.busy := rfl
@[simp] theorem drawNext_prngValid (s : State) : s.drawNext.prngValid = s.prngValid := twistIfDue_prngValid s
@[simp] theorem mtSeed_prngValid (s : State) (v : Word) : (s.mtSeed v).prngValid = s.prngValid := rfl
@[simp] theorem drawNext_fkeyValid (s : State) : s.drawNext.fkeyValid = s.fkeyValid := twistIfDue_fkeyValid s
@[simp] theorem mtSeed_fkeyValid (s : State) (v : Word) : (s.mtSeed v).fkeyValid = s.fkeyValid := rfl
@[simp] theorem drawNext_keysCopied (s : State) : s.drawNext.keysCopied = s.keysCopied := twistIfDue_keysCopied s
@[simp] theorem mtSeed_keysCopied (s : State) (v : Word) : (s.mtSeed v).keysCopied = s.keysCopied := rfl
@[simp] theorem drawNext_keysReady (s : State) : s.drawNext.keysReady = s.keysReady := twistIfDue_keysReady s
@[simp] theorem mtSeed_keysReady (s : State) (v : Word) : (s.mtSeed v).keysReady = s.keysReady := rfl
@[simp] theorem drawNext_streamActive (s : State) : s.drawNext.streamActive = s.streamActive := twistIfDue_streamActive s
@[simp] theorem mtSeed_streamActive (s : State) (v : Word) : (s.mtSeed v).streamActive = s.streamActive := rfl
@[simp] theorem drawNext_emit (s : State) : s.drawNext.emit = s.emit := twistIfDue_emit s
@[simp] theorem mtSeed_emit (s : State) (v : Word) : (s.mtSeed v).emit = s.emit := rfl
@[simp] theorem drawNext_err (s : State) : s.drawNext.err = s.err := twistIfDue_err s
@[simp] theorem mtSeed_err (s : State) (v : Word) : (s.mtSeed v).err = s.err := rfl
@[simp] theorem drawNext_arg0 (s : State) : s.drawNext.arg0 = s.arg0 := twistIfDue_arg0 s
@[simp] theorem mtSeed_arg0 (s : State) (v : Word) : (s.mtSeed v).arg0 = s.arg0 := rfl
@[simp] theorem drawNext_result (s : State) : s.drawNext.result = s.result := twistIfDue_result s
@[simp] theorem mtSeed_result (s : State) (v : Word) : (s.mtSeed v).result = s.result := rfl
@[simp] theorem drawNext_a (s : State) : s.drawNext.a = s.a := twistIfDue_a s
@[simp] theorem mtSeed_a (s : State) (v : Word) : (s.mtSeed v).a = s.a := rfl
@[simp] theorem drawNext_b (s : State) : s.drawNext.b = s.b := twistIfDue_b s
@[simp] theorem mtSeed_b (s : State) (v : Word) : (s.mtSeed v).b = s.b := rfl
@[simp] theorem drawNext_seed (s : State) : s.drawNext.seed = s.seed := twistIfDue_seed s
@[simp] theorem mtSeed_seed (s : State) (v : Word) : (s.mtSeed v).seed = s.seed := rfl
@[simp] theorem drawNext_nameLen (s : State) : s.drawNext.nameLen = s.nameLen := twistIfDue_nameLen s
@[simp] theorem mtSeed_nameLen (s : State) (v : Word) : (s.mtSeed v).nameLen = s.nameLen := rfl
@[simp] theorem drawNext_key1Len (s : State) : s.drawNext.key1Len = s.key1Len := twistIfDue_key1Len s
@[simp] theorem mtSeed_key1Len (s : State) (v : Word) : (s.mtSeed v).key1Len = s.key1Len := rfl
@[simp] theorem drawNext_key2Len (s : State) : s.drawNext.key2Len = s.key2Len := twistIfDue_key2Len s
@[simp] theorem mtSeed_key2Len (s : State) (v : Word) : (s.mtSeed v).key2Len = s.key2Len := rfl
@[simp] theorem drawNext_fkey0 (s : State) : s.drawNext.fkey0 = s.fkey0 := twistIfDue_fkey0 s
@[simp] theorem mtSeed_fkey0 (s : State) (v : Word) : (s.mtSeed v).fkey0 = s.fkey0 := rfl
@[simp] theorem drawNext_fkey1 (s : State) : s.drawNext.fkey1 = s.fkey1 := twistIfDue_fkey1 s
@[simp] theorem mtSeed_fkey1 (s : State) (v : Word) : (s.mtSeed v).fkey1 = s.fkey1 := rfl
@[simp] theorem drawNext_fkey2 (s : State) : s.drawNext.fkey2 = s.fkey2 := twistIfDue_fkey2 s
@[simp] theorem mtSeed_fkey2 (s : State) (v : Word) : (s.mtSeed v).fkey2 = s.fkey2 := rfl
@[simp] theorem drawNext_fkey3 (s : State) : s.drawNext.fkey3 = s.fkey3 := twistIfDue_fkey3 s
@[simp] theorem mtSeed_fkey3 (s : State) (v : Word) : (s.mtSeed v).fkey3 = s.fkey3 := rfl
@[simp] theorem drawNext_pairIdx (s : State) : s.drawNext.pairIdx = s.pairIdx := twistIfDue_pairIdx s
@[simp] theorem mtSeed_pairIdx (s : State) (v : Word) : (s.mtSeed v).pairIdx = s.pairIdx := rfl
@[simp] theorem drawNext_pairsLeft (s : State) : s.drawNext.pairsLeft = s.pairsLeft := twistIfDue_pairsLeft s
@[simp] theorem mtSeed_pairsLeft (s : State) (v : Word) : (s.mtSeed v).pairsLeft = s.pairsLeft := rfl
@[simp] theorem drawNext_k1CurLen (s : State) : s.drawNext.k1CurLen = s.k1CurLen := twistIfDue_k1CurLen s
@[simp] theorem mtSeed_k1CurLen (s : State) (v : Word) : (s.mtSeed v).k1CurLen = s.k1CurLen := rfl
@[simp] theorem drawNext_k2CurLen (s : State) : s.drawNext.k2CurLen = s.k2CurLen := twistIfDue_k2CurLen s
@[simp] theorem mtSeed_k2CurLen (s : State) (v : Word) : (s.mtSeed v).k2CurLen = s.k2CurLen := rfl
@[simp] theorem drawNext_inflight (s : State) : s.drawNext.inflight = s.inflight := twistIfDue_inflight s
@[simp] theorem mtSeed_inflight (s : State) (v : Word) : (s.mtSeed v).inflight = s.inflight := rfl
@[simp] theorem drawNext_agenda (s : State) : s.drawNext.agenda = s.agenda := twistIfDue_agenda s
@[simp] theorem mtSeed_agenda (s : State) (v : Word) : (s.mtSeed v).agenda = s.agenda := rfl
@[simp] theorem drawNext_reads (s : State) : s.drawNext.reads = s.reads := twistIfDue_reads s
@[simp] theorem mtSeed_reads (s : State) (v : Word) : (s.mtSeed v).reads = s.reads := rfl
@[simp] theorem drawNext_output (s : State) : s.drawNext.output = s.output := twistIfDue_output s
@[simp] theorem mtSeed_output (s : State) (v : Word) : (s.mtSeed v).output = s.output := rfl
@[simp] theorem drawNext_draws (s : State) : s.drawNext.draws = s.draws := twistIfDue_draws s
@[simp] theorem mtSeed_draws (s : State) (v : Word) : (s.mtSeed v).draws = s.draws := rfl
@[simp] theorem drawNext_epoch (s : State) : s.drawNext.epoch = s.epoch := twistIfDue_epoch s
@[simp] theorem mtSeed_epoch (s : State) (v : Word) : (s.mtSeed v).epoch = s.epoch := rfl
@[simp] theorem mtSeed_mti (s : State) (v : Word) : (s.mtSeed v).mti = 0#10 := rfl
@[simp] theorem drawNext_mti (s : State) :
    s.drawNext.mti = BitVec.ofNat 10 ((s.mti.toNat + 1) % mtWords) := rfl

end Sys2Proof.Machine
end

