-- ==== Sys2Proof/Laws/Operations.lean ====
section
/-! SUPPORT. What each shared operation can do, said once: issue and completion, the array stores, a host access, and
one step. Later proofs cite these and do not unfold the operations. -/

namespace Sys2Proof.Machine

/-! ### Issue and completion -/

/-- A command in flight completes: its effect, then INFLIGHT none and BUSY 0 (R225). -/
theorem command_completes {i : Instr} {s : State} (check : State → Option ErrCode) (effect : State → State)
    (h : s.inflight = some i) : command i check effect s = .next (effect s).retire := if_pos h

/-- A command not in flight is issued (R223). -/
theorem command_issues {i : Instr} {s : State} (check : State → Option ErrCode) (effect : State → State)
    (h : s.inflight ≠ some i) : command i check effect s = .next (issue i check s) := if_neg h

/-- Every meaning is its command's issue check and effect, at the parameters of this hardware. -/
theorem exec_eq (i : Instr) (s : State) : exec i s = execFor Config.thisHardware i s := by
  cases i <;> rfl

/-- This hardware is the machine of R8's parameters at the values R8 gives it. -/
theorem step_eq_stepFor (s : State) : step s = stepFor Config.thisHardware s := by
  have h : exec = execFor Config.thisHardware := funext fun i => funext fun s => exec_eq i s
  unfold step stepFor
  rw [h]

/-- For any parameters, a command in flight completes. -/
theorem execFor_completes (p : Config.Params) {i : Instr} {s : State} (h : s.inflight = some i) :
    execFor p i s = .next (completionEffect p i s).retire := command_completes _ _ h

/-- For any parameters, a command not in flight is issued. -/
theorem execFor_issues (p : Config.Params) {i : Instr} {s : State} (h : s.inflight ≠ some i) :
    execFor p i s = .next (issue i (issueCheck p i) s) := command_issues _ _ h

/-- Every command in flight completes. -/
theorem exec_completes {i : Instr} {s : State} (h : s.inflight = some i) :
    exec i s = .next (completionEffect Config.thisHardware i s).retire := by
  rw [exec_eq, execFor_completes _ h]

/-- Every command not in flight is issued. -/
theorem exec_issues {i : Instr} {s : State} (h : s.inflight ≠ some i) :
    exec i s = .next (issue i (issueCheck Config.thisHardware i) s) := by
  rw [exec_eq, execFor_issues _ h]

/-- Everything a command can do: complete, or be issued. -/
theorem exec_cases {i : Instr} {s t : State} (h : exec i s = .next t) :
    (s.inflight = some i ∧ t = (completionEffect Config.thisHardware i s).retire) ∨
    (s.inflight ≠ some i ∧ t = issue i (issueCheck Config.thisHardware i) s) := by
  by_cases hi : s.inflight = some i
  · rw [exec_completes hi] at h; cases h; exact .inl ⟨hi, rfl⟩
  · rw [exec_issues hi] at h; cases h; exact .inr ⟨hi, rfl⟩

/-- No command stops. -/
theorem exec_next (i : Instr) (s : State) : ∃ t, exec i s = .next t := by
  by_cases hi : s.inflight = some i
  · exact ⟨_, exec_completes hi⟩
  · exact ⟨_, exec_issues hi⟩

/-- Everything the issue of a command can do: record an error, be dropped, or accept (R223). -/
theorem issue_cases (i : Instr) (check : State → Option ErrCode) (s : State) :
    (s.busy = true ∧ issue i check s = s.raiseErr .busy) ∨
    (s.busy = false ∧ s.err ≠ 0#4 ∧ i ≠ .errClear ∧ issue i check s = s) ∨
    (s.busy = false ∧ (s.err = 0#4 ∨ i = .errClear) ∧ ∃ c, check s = some c ∧ issue i check s = s.raiseErr c) ∨
    (s.busy = false ∧ (s.err = 0#4 ∨ i = .errClear) ∧ check s = none ∧ issue i check s = s.accept i) := by
  unfold issue
  cases hb : s.busy
  · by_cases he : s.err ≠ 0#4 ∧ i ≠ .errClear
    · simp [he]
    · have he' : s.err = 0#4 ∨ i = .errClear := by
        by_cases h0 : s.err = 0#4
        · exact .inl h0
        · right; by_contra h1; exact he ⟨h0, h1⟩
      rcases he' with h0 | h0 <;> cases hc : check s <;> simp [h0]
  · simp

/-- The issue of a command whose checks hold, while nothing is in flight and no error is recorded. -/
theorem issue_accepts {i : Instr} {check : State → Option ErrCode} {s : State} (hb : s.busy = false)
    (he : s.err = 0#4 ∨ i = .errClear) (hc : check s = none) : issue i check s = s.accept i := by
  unfold issue
  have : ¬ (s.err ≠ 0#4 ∧ i ≠ .errClear) := by rcases he with h | h <;> simp [h]
  simp [hb, this, hc]

/-- The issue of a command whose first failing check gives `c`, while nothing is in flight and no error is recorded. -/
theorem issue_rejects {i : Instr} {check : State → Option ErrCode} {s : State} {c : ErrCode} (hb : s.busy = false)
    (he : s.err = 0#4) (hc : check s = some c) : issue i check s = { s with err := c.code } := by
  unfold issue
  simp [hb, he, hc, State.raiseErr]

/-- A check passes exactly when its condition holds. -/
@[simp] theorem require_eq_none {ok : Bool} {c : ErrCode} : require ok c = none ↔ ok = true := by
  cases ok <;> simp [require]

@[simp] theorem require_true (c : ErrCode) : require true c = none := rfl

@[simp] theorem require_false (c : ErrCode) : require false c = some c := rfl

/-- The legal key1 lengths in numbers (R38). -/
theorem key1LenLegal_iff (n : Nat) : key1LenLegal Config.thisHardware n = true ↔ (n % 2 = 0 ∧ 18 ≤ n ∧ n ≤ 1024) := by
  simp only [key1LenLegal, Bool.and_eq_true, beq_iff_eq, decide_eq_true_eq, and_assoc]
  rfl

/-- The legal key2 lengths in numbers (R38). -/
theorem key2LenLegal_iff (n : Nat) : key2LenLegal Config.thisHardware n = true ↔ (n % 2 = 0 ∧ 1024 ≤ n ∧ n ≤ 4096) := by
  simp only [key2LenLegal, Bool.and_eq_true, beq_iff_eq, decide_eq_true_eq, and_assoc]
  rfl

/-- The legal name lengths in numbers (R136). -/
theorem nameLenLegal_iff (n : Nat) : nameLenLegal Config.thisHardware n = true ↔ n ≤ 256 := by
  simp only [nameLenLegal, decide_eq_true_eq]
  rfl

/-! ### The array stores -/

/-- Where a store does not reach, bytes are unchanged. -/
theorem byte_storeMT_outside (s : State) (ws : List Word) (x : Nat) (h : x < 0x30000 ∨ 0x309C0 ≤ x) :
    (s.storeMT ws).byte x = s.byte x := by
  refine byte_storeWords_outside s _ _ x ?_
  have : (ws.take mtWords).length ≤ 624 := by simp [mtWords]
  simp only [mtBase]; omega

theorem byte_storeK1_outside (s : State) (ws : List Word) (x : Nat)
    (h : x < 0x08000 ∨ 0x08000 + 4 * ws.length ≤ x ∨ 0x09000 ≤ x) :
    (s.storeK1 Config.thisHardware ws).byte x = s.byte x := by
  refine byte_storeWords_outside s _ _ x ?_
  have : (ws.take Config.thisHardware.k1Max).length = min 1024 ws.length := by simp [Config.thisHardware]
  simp only [k1Base]; omega

theorem byte_storeK2_outside (s : State) (ws : List Word) (x : Nat)
    (h : x < 0x20000 ∨ 0x20000 + 4 * ws.length ≤ x ∨ 0x24000 ≤ x) :
    (s.storeK2 Config.thisHardware ws).byte x = s.byte x := by
  refine byte_storeWords_outside s _ _ x ?_
  have : (ws.take Config.thisHardware.k2Max).length = min 4096 ws.length := by simp [Config.thisHardware]
  simp only [k2Base]; omega

/-- An element stored is read back. -/
theorem mtWord_storeMT (s : State) (ws : List Word) (i : Nat) (h : i < 624) (hl : i < ws.length) :
    (s.storeMT ws).mtWord i = ws[i] := by
  have h1 : i < (ws.take mtWords).length := by simp [mtWords]; omega
  have := word_storeWords_inside s mtBase (ws.take mtWords) i h1
  simpa [State.mtWord, State.storeMT, elementAddr] using this

theorem k1Word_storeK1 (s : State) (ws : List Word) (i : Nat) (h : i < 1024) (hl : i < ws.length) :
    (s.storeK1 Config.thisHardware ws).k1Word i = ws[i] := by
  have h1 : i < (ws.take Config.thisHardware.k1Max).length := by simp [Config.thisHardware]; omega
  have := word_storeWords_inside s k1Base (ws.take Config.thisHardware.k1Max) i h1
  simpa [State.k1Word, State.storeK1, elementAddr] using this

theorem k2Word_storeK2 (s : State) (ws : List Word) (i : Nat) (h : i < 4096) (hl : i < ws.length) :
    (s.storeK2 Config.thisHardware ws).k2Word i = ws[i] := by
  have h1 : i < (ws.take Config.thisHardware.k2Max).length := by simp [Config.thisHardware]; omega
  have := word_storeWords_inside s k2Base (ws.take Config.thisHardware.k2Max) i h1
  simpa [State.k2Word, State.storeK2, elementAddr] using this

/-- What is loaded is the elements, one by one. -/
theorem loadMT_eq (s : State) (n : Nat) : s.loadWords mtBase n = (List.range n).map s.mtWord := loadWords_eq s _ _

theorem loadKS1_eq (s : State) (n : Nat) : s.loadWords ks1Base n = (List.range n).map s.ks1Word := loadWords_eq s _ _

theorem loadKS2_eq (s : State) (n : Nat) : s.loadWords ks2Base n = (List.range n).map s.ks2Word := loadWords_eq s _ _

theorem loadK1_eq (s : State) (n : Nat) : s.loadWords k1Base n = (List.range n).map s.k1Word := loadWords_eq s _ _

theorem loadK2_eq (s : State) (n : Nat) : s.loadWords k2Base n = (List.range n).map s.k2Word := loadWords_eq s _ _

/-- The round functions' keys as the statements name them. -/
theorem roundKeys_eq (s : State) : s.roundKeys = roundKeysOf s := loadK1_eq s _

theorem sBoxes_eq (s : State) : s.sBoxes = sBoxesOf s := loadK2_eq s _

/-- Reading an array depends on its bytes only. -/
theorem mtWord_congr {s t : State} (h : ∀ x, 0x30000 ≤ x → x < 0x31000 → t.byte x = s.byte x) (i : Nat) (hi : i < 1024) :
    t.mtWord i = s.mtWord i :=
  word_congr fun k hk => h _ (by simp only [elementAddr, mtBase]; omega) (by simp only [elementAddr, mtBase]; omega)

theorem k1Word_congr {s t : State} (h : ∀ x, 0x08000 ≤ x → x < 0x0C000 → t.byte x = s.byte x) (i : Nat) (hi : i < 4096) :
    t.k1Word i = s.k1Word i :=
  word_congr fun k hk => h _ (by simp only [elementAddr, k1Base]; omega) (by simp only [elementAddr, k1Base]; omega)

theorem k2Word_congr {s t : State} (h : ∀ x, 0x20000 ≤ x → x < 0x30000 → t.byte x = s.byte x) (i : Nat)
    (hi : i < 16384) : t.k2Word i = s.k2Word i :=
  word_congr fun k hk => h _ (by simp only [elementAddr, k2Base]; omega) (by simp only [elementAddr, k2Base]; omega)

/-- Bytes depend on the arrays and the count of resets only. -/
theorem byte_congr {s t : State} (hm : t.mem = s.mem) (he : t.epoch = s.epoch) (x : Nat) : t.byte x = s.byte x := by
  simp only [State.byte, hm, he]

/-! ### Host accesses and steps -/

/-- A read of the bus answers the target's value, or a free word when R73 says so; nothing else happens. -/
theorem hostRead_cases (p : Config.Params) (s : State) (addr : Nat) :
    (s.busy = true ∧ Target.commandWritten (decodeAddr p addr) = true ∧ s.hostRead p addr = s.answerFree) ∨
    ((s.busy = false ∨ Target.commandWritten (decodeAddr p addr) = false) ∧
      s.hostRead p addr = s.answer (s.targetValue p (decodeAddr p addr))) := by
  unfold State.hostRead
  cases s.busy <;> cases Target.commandWritten (decodeAddr p addr) <;> simp

/-- A read of STATUS answers STATUS, whatever BUSY is (R73). -/
theorem readStatus_eq (p : Config.Params) (s : State) : s.readStatus p = s.answer s.statusWord := by
  have h1 : decodeAddr p (Reg.offset .status) = .reg .status := rfl
  have h2 : Target.commandWritten (.reg .status) = false := rfl
  unfold State.readStatus State.hostRead
  rw [h1, h2, Bool.and_false]
  rfl

variable {run : Instr → State → Host.Outcome State Fault Refusal}

/-- Everything a well-formed host write can do. -/
theorem hostWrite_cases (p : Config.Params) (addr : Nat) (v : Word) (s : State) :
    (s.busy = true ∧ hostWrite p run addr v s = .next (s.raiseErr .busy)) ∨
    (s.busy = false ∧ decodeAddr p addr = .reg .cmd ∧ hostWrite p run addr v s = issueWord run v s) ∨
    (s.busy = false ∧ decodeAddr p addr ≠ .reg .cmd ∧
      hostWrite p run addr v s = .next (s.writeTarget p (decodeAddr p addr) v)) := by
  unfold hostWrite State.dropWrite
  cases hb : s.busy
  · by_cases hc : decodeAddr p addr = .reg .cmd <;> simp [hc]
  · simp

/-- Everything a write to CMD can do while BUSY = 0. -/
theorem issueWord_cases (w : Word) (s : State) :
    (∃ i, decode w = .ok i ∧ issueWord run w s = run i s) ∨
    ((∃ e, decode w = .error e) ∧ s.err ≠ 0#4 ∧ issueWord run w s = .next s) ∨
    ((∃ e, decode w = .error e) ∧ s.err = 0#4 ∧ issueWord run w s = .next (s.raiseErr .illegal)) := by
  unfold issueWord
  cases hd : decode w with
  | ok i => exact .inl ⟨i, rfl, rfl⟩
  | error e =>
    by_cases he : s.err = 0#4
    · exact .inr (.inr ⟨⟨e, rfl⟩, he, by simp [he]⟩)
    · exact .inr (.inl ⟨⟨e, rfl⟩, he, by simp [he]⟩)

/-- Everything one step can do, from the events to come. -/
theorem step_cases {s t : State} (h : step s = .next t) :
    (s.agenda = [] ∧ engineStep exec s = .next t) ∨
    ∃ e es, s.agenda = e :: es ∧ eventStep Config.thisHardware exec e (s.setAgenda es) = .next t := by
  simp only [step, nextEvent] at h
  split at h
  · exact .inl ⟨‹_›, h⟩
  · exact .inr ⟨_, _, ‹_›, h⟩

/-- The engine's turn completes the command in flight, or does nothing. -/
theorem engineStep_cases (s : State) :
    (∃ i, s.inflight = some i ∧ engineStep exec s = .next (completionEffect Config.thisHardware i s).retire) ∨
    (s.inflight = none ∧ engineStep exec s = .next s) := by
  unfold engineStep
  cases h : s.inflight with
  | none => exact .inr ⟨rfl, rfl⟩
  | some i => exact .inl ⟨i, rfl, exec_completes h⟩

/-- A host access that the interface has, done. -/
theorem hostStep_cases {p : Config.Params} {x : HostAccess} {s t : State} (h : hostStep p run x s = .next t) :
    x.problem = none ∧
      ((∃ addr bytes, x = .read addr bytes ∧ t = s.hostRead p addr) ∨
        ∃ addr bytes v, x = .write addr bytes v ∧ hostWrite p run addr v s = .next t) := by
  unfold hostStep at h
  split at h
  · cases h
  · refine ⟨‹_›, ?_⟩
    split at h
    · cases h; exact .inl ⟨_, _, rfl, rfl⟩
    · exact .inr ⟨_, _, _, rfl, h⟩

/-- Everything the host program's `check` can do: the read of STATUS, and the host's later events dropped if ERR is
not 0 (R98). -/
theorem hostCheck_cases (p : Config.Params) (s : State) :
    (s.err = 0#4 ∧ s.hostCheck p = s.answer s.statusWord) ∨
    (s.err ≠ 0#4 ∧
      s.hostCheck p = (s.answer s.statusWord).setAgenda (s.agenda.filter (fun e => !Event.isHosts e))) := by
  unfold State.hostCheck
  rw [readStatus_eq]
  by_cases he : s.err = 0#4 <;> simp [he]

/-- Everything one step of the host program's `wait` can do: read STATUS and end, read STATUS and go on waiting, or
leave the engine its turn and go on waiting (R97). -/
theorem hostWait_cases (p : Config.Params) (polls : Nat) (s : State) :
    (s.busy = false ∧ hostWait p run polls s = .next (s.answer s.statusWord)) ∨
    (s.busy = true ∧ polls = 0 ∧ hostWait p run polls s = engineStep run (s.setAgenda (.wait 0 :: s.agenda))) ∨
    (s.busy = true ∧ ∃ n, polls = n + 1 ∧
      hostWait p run polls s = .next ((s.answer s.statusWord).setAgenda (.wait n :: s.agenda))) := by
  unfold hostWait
  rw [readStatus_eq]
  cases s.busy <;> cases polls <;> simp

/-- Everything the host's output step can do: the read of STATUS, and if EMIT = 1 the reads of A and B and the append
come next (R197). -/
theorem hostCollect_cases (p : Config.Params) (s : State) :
    (s.emit = false ∧ s.hostCollect p = s.answer s.statusWord) ∨
    (s.emit = true ∧ s.hostCollect p =
      (s.answer s.statusWord).setAgenda
        (.host (.read (Reg.offset .a) 4) :: .host (.read (Reg.offset .b) 4) :: .append :: s.agenda)) := by
  unfold State.hostCollect
  rw [readStatus_eq]
  cases s.emit <;> simp

/-- The append changes the output only, by the bytes of the last two words read (R199). -/
theorem hostAppend_cases (s : State) :
    (∃ x y rest, s.reads = y :: x :: rest ∧ s.hostAppend = { s with output := s.output ++ pairBytes (x, y) }) ∨
    s.hostAppend = s := by
  unfold State.hostAppend
  split
  · exact .inl ⟨_, _, _, ‹_›, rfl⟩
  · exact .inr rfl

end Sys2Proof.Machine
end

