-- ==== Sys2Proof/Laws/Effects.lean ====
section
/-! SUPPORT. The composite effects: what each leaves in the registers, and that no effect and no issue check looks at
INFLIGHT, BUSY or the model's own fields. -/

namespace Sys2Proof.Machine

/-! ### `State.drawFileKey` -/

@[simp] theorem drawFileKey_busy (s : State) : (s.drawFileKey).busy = s.busy := by simp [State.drawFileKey]
@[simp] theorem drawFileKey_prngValid (s : State) :
    (s.drawFileKey).prngValid = s.prngValid := by simp [State.drawFileKey]
@[simp] theorem drawFileKey_fkeyValid (s : State) :
    (s.drawFileKey).fkeyValid = s.fkeyValid := by simp [State.drawFileKey]
@[simp] theorem drawFileKey_keysCopied (s : State) :
    (s.drawFileKey).keysCopied = s.keysCopied := by simp [State.drawFileKey]
@[simp] theorem drawFileKey_keysReady (s : State) :
    (s.drawFileKey).keysReady = s.keysReady := by simp [State.drawFileKey]
@[simp] theorem drawFileKey_streamActive (s : State) :
    (s.drawFileKey).streamActive = s.streamActive := by simp [State.drawFileKey]
@[simp] theorem drawFileKey_emit (s : State) : (s.drawFileKey).emit = s.emit := by simp [State.drawFileKey]
@[simp] theorem drawFileKey_err (s : State) : (s.drawFileKey).err = s.err := by simp [State.drawFileKey]
@[simp] theorem drawFileKey_arg0 (s : State) : (s.drawFileKey).arg0 = s.arg0 := by simp [State.drawFileKey]
@[simp] theorem drawFileKey_result (s : State) : (s.drawFileKey).result = s.result := by simp [State.drawFileKey]
@[simp] theorem drawFileKey_a (s : State) : (s.drawFileKey).a = s.a := by simp [State.drawFileKey]
@[simp] theorem drawFileKey_b (s : State) : (s.drawFileKey).b = s.b := by simp [State.drawFileKey]
@[simp] theorem drawFileKey_seed (s : State) : (s.drawFileKey).seed = s.seed := by simp [State.drawFileKey]
@[simp] theorem drawFileKey_nameLen (s : State) : (s.drawFileKey).nameLen = s.nameLen := by simp [State.drawFileKey]
@[simp] theorem drawFileKey_key1Len (s : State) : (s.drawFileKey).key1Len = s.key1Len := by simp [State.drawFileKey]
@[simp] theorem drawFileKey_key2Len (s : State) : (s.drawFileKey).key2Len = s.key2Len := by simp [State.drawFileKey]
@[simp] theorem drawFileKey_pairIdx (s : State) : (s.drawFileKey).pairIdx = s.pairIdx := by simp [State.drawFileKey]
@[simp] theorem drawFileKey_pairsLeft (s : State) :
    (s.drawFileKey).pairsLeft = s.pairsLeft := by simp [State.drawFileKey]
@[simp] theorem drawFileKey_k1CurLen (s : State) : (s.drawFileKey).k1CurLen = s.k1CurLen := by simp [State.drawFileKey]
@[simp] theorem drawFileKey_k2CurLen (s : State) : (s.drawFileKey).k2CurLen = s.k2CurLen := by simp [State.drawFileKey]
@[simp] theorem drawFileKey_inflight (s : State) : (s.drawFileKey).inflight = s.inflight := by simp [State.drawFileKey]
@[simp] theorem drawFileKey_agenda (s : State) : (s.drawFileKey).agenda = s.agenda := by simp [State.drawFileKey]
@[simp] theorem drawFileKey_reads (s : State) : (s.drawFileKey).reads = s.reads := by simp [State.drawFileKey]
@[simp] theorem drawFileKey_output (s : State) : (s.drawFileKey).output = s.output := by simp [State.drawFileKey]
@[simp] theorem drawFileKey_draws (s : State) : (s.drawFileKey).draws = s.draws := by simp [State.drawFileKey]
@[simp] theorem drawFileKey_epoch (s : State) : (s.drawFileKey).epoch = s.epoch := by simp [State.drawFileKey]

/-! ### `fileKeyEffect` -/

@[simp] theorem fileKeyEffect_busy (p : Config.Params) (s : State) :
    (fileKeyEffect p s).busy = s.busy := by simp [fileKeyEffect]
@[simp] theorem fileKeyEffect_prngValid (p : Config.Params) (s : State) :
    (fileKeyEffect p s).prngValid = true := by simp [fileKeyEffect]
@[simp] theorem fileKeyEffect_fkeyValid (p : Config.Params) (s : State) :
    (fileKeyEffect p s).fkeyValid = true := by simp [fileKeyEffect]
@[simp] theorem fileKeyEffect_keysCopied (p : Config.Params) (s : State) :
    (fileKeyEffect p s).keysCopied = s.keysCopied := by simp [fileKeyEffect]
@[simp] theorem fileKeyEffect_keysReady (p : Config.Params) (s : State) :
    (fileKeyEffect p s).keysReady = s.keysReady := by simp [fileKeyEffect]
@[simp] theorem fileKeyEffect_streamActive (p : Config.Params) (s : State) :
    (fileKeyEffect p s).streamActive = s.streamActive := by simp [fileKeyEffect]
@[simp] theorem fileKeyEffect_emit (p : Config.Params) (s : State) :
    (fileKeyEffect p s).emit = s.emit := by simp [fileKeyEffect]
@[simp] theorem fileKeyEffect_err (p : Config.Params) (s : State) :
    (fileKeyEffect p s).err = s.err := by simp [fileKeyEffect]
@[simp] theorem fileKeyEffect_arg0 (p : Config.Params) (s : State) :
    (fileKeyEffect p s).arg0 = s.arg0 := by simp [fileKeyEffect]
@[simp] theorem fileKeyEffect_result (p : Config.Params) (s : State) :
    (fileKeyEffect p s).result = s.result := by simp [fileKeyEffect]
@[simp] theorem fileKeyEffect_a (p : Config.Params) (s : State) : (fileKeyEffect p s).a = s.a := by simp [fileKeyEffect]
@[simp] theorem fileKeyEffect_b (p : Config.Params) (s : State) : (fileKeyEffect p s).b = s.b := by simp [fileKeyEffect]
@[simp] theorem fileKeyEffect_seed (p : Config.Params) (s : State) :
    (fileKeyEffect p s).seed = seedFromBytes (normalizeName p s.nameBytes) := by simp [fileKeyEffect]
@[simp] theorem fileKeyEffect_nameLen (p : Config.Params) (s : State) :
    (fileKeyEffect p s).nameLen = s.nameLen := by simp [fileKeyEffect]
@[simp] theorem fileKeyEffect_key1Len (p : Config.Params) (s : State) :
    (fileKeyEffect p s).key1Len = s.key1Len := by simp [fileKeyEffect]
@[simp] theorem fileKeyEffect_key2Len (p : Config.Params) (s : State) :
    (fileKeyEffect p s).key2Len = s.key2Len := by simp [fileKeyEffect]
@[simp] theorem fileKeyEffect_pairIdx (p : Config.Params) (s : State) :
    (fileKeyEffect p s).pairIdx = s.pairIdx := by simp [fileKeyEffect]
@[simp] theorem fileKeyEffect_pairsLeft (p : Config.Params) (s : State) :
    (fileKeyEffect p s).pairsLeft = s.pairsLeft := by simp [fileKeyEffect]
@[simp] theorem fileKeyEffect_k1CurLen (p : Config.Params) (s : State) :
    (fileKeyEffect p s).k1CurLen = s.k1CurLen := by simp [fileKeyEffect]
@[simp] theorem fileKeyEffect_k2CurLen (p : Config.Params) (s : State) :
    (fileKeyEffect p s).k2CurLen = s.k2CurLen := by simp [fileKeyEffect]
@[simp] theorem fileKeyEffect_inflight (p : Config.Params) (s : State) :
    (fileKeyEffect p s).inflight = s.inflight := by simp [fileKeyEffect]
@[simp] theorem fileKeyEffect_agenda (p : Config.Params) (s : State) :
    (fileKeyEffect p s).agenda = s.agenda := by simp [fileKeyEffect]
@[simp] theorem fileKeyEffect_reads (p : Config.Params) (s : State) :
    (fileKeyEffect p s).reads = s.reads := by simp [fileKeyEffect]
@[simp] theorem fileKeyEffect_output (p : Config.Params) (s : State) :
    (fileKeyEffect p s).output = s.output := by simp [fileKeyEffect]
@[simp] theorem fileKeyEffect_draws (p : Config.Params) (s : State) :
    (fileKeyEffect p s).draws = s.draws := by simp [fileKeyEffect]
@[simp] theorem fileKeyEffect_epoch (p : Config.Params) (s : State) :
    (fileKeyEffect p s).epoch = s.epoch := by simp [fileKeyEffect]

/-! ### `keyCopyEffect` -/

@[simp] theorem keyCopyEffect_busy (p : Config.Params) (s : State) :
    (keyCopyEffect p s).busy = s.busy := by simp [keyCopyEffect]
@[simp] theorem keyCopyEffect_prngValid (p : Config.Params) (s : State) :
    (keyCopyEffect p s).prngValid = s.prngValid := by simp [keyCopyEffect]
@[simp] theorem keyCopyEffect_fkeyValid (p : Config.Params) (s : State) :
    (keyCopyEffect p s).fkeyValid = s.fkeyValid := by simp [keyCopyEffect]
@[simp] theorem keyCopyEffect_keysCopied (p : Config.Params) (s : State) :
    (keyCopyEffect p s).keysCopied = true := by simp [keyCopyEffect]
@[simp] theorem keyCopyEffect_keysReady (p : Config.Params) (s : State) :
    (keyCopyEffect p s).keysReady = false := by simp [keyCopyEffect]
@[simp] theorem keyCopyEffect_streamActive (p : Config.Params) (s : State) :
    (keyCopyEffect p s).streamActive = false := by simp [keyCopyEffect]
@[simp] theorem keyCopyEffect_emit (p : Config.Params) (s : State) :
    (keyCopyEffect p s).emit = false := by simp [keyCopyEffect]
@[simp] theorem keyCopyEffect_err (p : Config.Params) (s : State) :
    (keyCopyEffect p s).err = s.err := by simp [keyCopyEffect]
@[simp] theorem keyCopyEffect_arg0 (p : Config.Params) (s : State) :
    (keyCopyEffect p s).arg0 = s.arg0 := by simp [keyCopyEffect]
@[simp] theorem keyCopyEffect_result (p : Config.Params) (s : State) :
    (keyCopyEffect p s).result = s.result := by simp [keyCopyEffect]
@[simp] theorem keyCopyEffect_a (p : Config.Params) (s : State) : (keyCopyEffect p s).a = s.a := by simp [keyCopyEffect]
@[simp] theorem keyCopyEffect_b (p : Config.Params) (s : State) : (keyCopyEffect p s).b = s.b := by simp [keyCopyEffect]
@[simp] theorem keyCopyEffect_seed (p : Config.Params) (s : State) :
    (keyCopyEffect p s).seed = s.seed := by simp [keyCopyEffect]
@[simp] theorem keyCopyEffect_nameLen (p : Config.Params) (s : State) :
    (keyCopyEffect p s).nameLen = s.nameLen := by simp [keyCopyEffect]
@[simp] theorem keyCopyEffect_key1Len (p : Config.Params) (s : State) :
    (keyCopyEffect p s).key1Len = s.key1Len := by simp [keyCopyEffect]
@[simp] theorem keyCopyEffect_key2Len (p : Config.Params) (s : State) :
    (keyCopyEffect p s).key2Len = s.key2Len := by simp [keyCopyEffect]
@[simp] theorem keyCopyEffect_fkey0 (p : Config.Params) (s : State) :
    (keyCopyEffect p s).fkey0 = s.fkey0 := by simp [keyCopyEffect]
@[simp] theorem keyCopyEffect_fkey1 (p : Config.Params) (s : State) :
    (keyCopyEffect p s).fkey1 = s.fkey1 := by simp [keyCopyEffect]
@[simp] theorem keyCopyEffect_fkey2 (p : Config.Params) (s : State) :
    (keyCopyEffect p s).fkey2 = s.fkey2 := by simp [keyCopyEffect]
@[simp] theorem keyCopyEffect_fkey3 (p : Config.Params) (s : State) :
    (keyCopyEffect p s).fkey3 = s.fkey3 := by simp [keyCopyEffect]
@[simp] theorem keyCopyEffect_mti (p : Config.Params) (s : State) :
    (keyCopyEffect p s).mti = s.mti := by simp [keyCopyEffect]
@[simp] theorem keyCopyEffect_pairIdx (p : Config.Params) (s : State) :
    (keyCopyEffect p s).pairIdx = s.pairIdx := by simp [keyCopyEffect]
@[simp] theorem keyCopyEffect_pairsLeft (p : Config.Params) (s : State) :
    (keyCopyEffect p s).pairsLeft = 0 := by simp [keyCopyEffect]
@[simp] theorem keyCopyEffect_k1CurLen (p : Config.Params) (s : State) :
    (keyCopyEffect p s).k1CurLen = s.key1Len := by simp [keyCopyEffect]
@[simp] theorem keyCopyEffect_k2CurLen (p : Config.Params) (s : State) :
    (keyCopyEffect p s).k2CurLen = s.key2Len := by simp [keyCopyEffect]
@[simp] theorem keyCopyEffect_inflight (p : Config.Params) (s : State) :
    (keyCopyEffect p s).inflight = s.inflight := by simp [keyCopyEffect]
@[simp] theorem keyCopyEffect_agenda (p : Config.Params) (s : State) :
    (keyCopyEffect p s).agenda = s.agenda := by simp [keyCopyEffect]
@[simp] theorem keyCopyEffect_reads (p : Config.Params) (s : State) :
    (keyCopyEffect p s).reads = s.reads := by simp [keyCopyEffect]
@[simp] theorem keyCopyEffect_output (p : Config.Params) (s : State) :
    (keyCopyEffect p s).output = s.output := by simp [keyCopyEffect]
@[simp] theorem keyCopyEffect_draws (p : Config.Params) (s : State) :
    (keyCopyEffect p s).draws = s.draws := by simp [keyCopyEffect]
@[simp] theorem keyCopyEffect_epoch (p : Config.Params) (s : State) :
    (keyCopyEffect p s).epoch = s.epoch := by simp [keyCopyEffect]

/-! ### `keyXorEffect` -/

@[simp] theorem keyXorEffect_busy (p : Config.Params) (s : State) :
    (keyXorEffect p s).busy = s.busy := by simp [keyXorEffect]
@[simp] theorem keyXorEffect_prngValid (p : Config.Params) (s : State) :
    (keyXorEffect p s).prngValid = s.prngValid := by simp [keyXorEffect]
@[simp] theorem keyXorEffect_fkeyValid (p : Config.Params) (s : State) :
    (keyXorEffect p s).fkeyValid = s.fkeyValid := by simp [keyXorEffect]
@[simp] theorem keyXorEffect_keysCopied (p : Config.Params) (s : State) :
    (keyXorEffect p s).keysCopied = s.keysCopied := by simp [keyXorEffect]
@[simp] theorem keyXorEffect_keysReady (p : Config.Params) (s : State) :
    (keyXorEffect p s).keysReady = false := by simp [keyXorEffect]
@[simp] theorem keyXorEffect_streamActive (p : Config.Params) (s : State) :
    (keyXorEffect p s).streamActive = false := by simp [keyXorEffect]
@[simp] theorem keyXorEffect_emit (p : Config.Params) (s : State) :
    (keyXorEffect p s).emit = false := by simp [keyXorEffect]
@[simp] theorem keyXorEffect_err (p : Config.Params) (s : State) :
    (keyXorEffect p s).err = s.err := by simp [keyXorEffect]
@[simp] theorem keyXorEffect_arg0 (p : Config.Params) (s : State) :
    (keyXorEffect p s).arg0 = s.arg0 := by simp [keyXorEffect]
@[simp] theorem keyXorEffect_result (p : Config.Params) (s : State) :
    (keyXorEffect p s).result = s.result := by simp [keyXorEffect]
@[simp] theorem keyXorEffect_a (p : Config.Params) (s : State) : (keyXorEffect p s).a = s.a := by simp [keyXorEffect]
@[simp] theorem keyXorEffect_b (p : Config.Params) (s : State) : (keyXorEffect p s).b = s.b := by simp [keyXorEffect]
@[simp] theorem keyXorEffect_seed (p : Config.Params) (s : State) :
    (keyXorEffect p s).seed = s.seed := by simp [keyXorEffect]
@[simp] theorem keyXorEffect_nameLen (p : Config.Params) (s : State) :
    (keyXorEffect p s).nameLen = s.nameLen := by simp [keyXorEffect]
@[simp] theorem keyXorEffect_key1Len (p : Config.Params) (s : State) :
    (keyXorEffect p s).key1Len = s.key1Len := by simp [keyXorEffect]
@[simp] theorem keyXorEffect_key2Len (p : Config.Params) (s : State) :
    (keyXorEffect p s).key2Len = s.key2Len := by simp [keyXorEffect]
@[simp] theorem keyXorEffect_fkey0 (p : Config.Params) (s : State) :
    (keyXorEffect p s).fkey0 = s.fkey0 := by simp [keyXorEffect]
@[simp] theorem keyXorEffect_fkey1 (p : Config.Params) (s : State) :
    (keyXorEffect p s).fkey1 = s.fkey1 := by simp [keyXorEffect]
@[simp] theorem keyXorEffect_fkey2 (p : Config.Params) (s : State) :
    (keyXorEffect p s).fkey2 = s.fkey2 := by simp [keyXorEffect]
@[simp] theorem keyXorEffect_fkey3 (p : Config.Params) (s : State) :
    (keyXorEffect p s).fkey3 = s.fkey3 := by simp [keyXorEffect]
@[simp] theorem keyXorEffect_mti (p : Config.Params) (s : State) :
    (keyXorEffect p s).mti = s.mti := by simp [keyXorEffect]
@[simp] theorem keyXorEffect_pairIdx (p : Config.Params) (s : State) :
    (keyXorEffect p s).pairIdx = s.pairIdx := by simp [keyXorEffect]
@[simp] theorem keyXorEffect_pairsLeft (p : Config.Params) (s : State) :
    (keyXorEffect p s).pairsLeft = 0 := by simp [keyXorEffect]
@[simp] theorem keyXorEffect_k1CurLen (p : Config.Params) (s : State) :
    (keyXorEffect p s).k1CurLen = s.k1CurLen := by simp [keyXorEffect]
@[simp] theorem keyXorEffect_k2CurLen (p : Config.Params) (s : State) :
    (keyXorEffect p s).k2CurLen = s.k2CurLen := by simp [keyXorEffect]
@[simp] theorem keyXorEffect_inflight (p : Config.Params) (s : State) :
    (keyXorEffect p s).inflight = s.inflight := by simp [keyXorEffect]
@[simp] theorem keyXorEffect_agenda (p : Config.Params) (s : State) :
    (keyXorEffect p s).agenda = s.agenda := by simp [keyXorEffect]
@[simp] theorem keyXorEffect_reads (p : Config.Params) (s : State) :
    (keyXorEffect p s).reads = s.reads := by simp [keyXorEffect]
@[simp] theorem keyXorEffect_output (p : Config.Params) (s : State) :
    (keyXorEffect p s).output = s.output := by simp [keyXorEffect]
@[simp] theorem keyXorEffect_draws (p : Config.Params) (s : State) :
    (keyXorEffect p s).draws = s.draws := by simp [keyXorEffect]
@[simp] theorem keyXorEffect_epoch (p : Config.Params) (s : State) :
    (keyXorEffect p s).epoch = s.epoch := by simp [keyXorEffect]

/-! ### `descrambleEffect` -/

@[simp] theorem descrambleEffect_busy (p : Config.Params) (s : State) :
    (descrambleEffect p s).busy = s.busy := by simp [descrambleEffect]
@[simp] theorem descrambleEffect_prngValid (p : Config.Params) (s : State) :
    (descrambleEffect p s).prngValid = s.prngValid := by simp [descrambleEffect]
@[simp] theorem descrambleEffect_fkeyValid (p : Config.Params) (s : State) :
    (descrambleEffect p s).fkeyValid = s.fkeyValid := by simp [descrambleEffect]
@[simp] theorem descrambleEffect_keysCopied (p : Config.Params) (s : State) :
    (descrambleEffect p s).keysCopied = s.keysCopied := by simp [descrambleEffect]
@[simp] theorem descrambleEffect_keysReady (p : Config.Params) (s : State) :
    (descrambleEffect p s).keysReady = true := by simp [descrambleEffect]
@[simp] theorem descrambleEffect_streamActive (p : Config.Params) (s : State) :
    (descrambleEffect p s).streamActive = false := by simp [descrambleEffect]
@[simp] theorem descrambleEffect_emit (p : Config.Params) (s : State) :
    (descrambleEffect p s).emit = false := by simp [descrambleEffect]
@[simp] theorem descrambleEffect_err (p : Config.Params) (s : State) :
    (descrambleEffect p s).err = s.err := by simp [descrambleEffect]
@[simp] theorem descrambleEffect_arg0 (p : Config.Params) (s : State) :
    (descrambleEffect p s).arg0 = s.arg0 := by simp [descrambleEffect]
@[simp] theorem descrambleEffect_result (p : Config.Params) (s : State) :
    (descrambleEffect p s).result = s.result := by simp [descrambleEffect]
@[simp] theorem descrambleEffect_seed (p : Config.Params) (s : State) :
    (descrambleEffect p s).seed = s.seed := by simp [descrambleEffect]
@[simp] theorem descrambleEffect_nameLen (p : Config.Params) (s : State) :
    (descrambleEffect p s).nameLen = s.nameLen := by simp [descrambleEffect]
@[simp] theorem descrambleEffect_key1Len (p : Config.Params) (s : State) :
    (descrambleEffect p s).key1Len = s.key1Len := by simp [descrambleEffect]
@[simp] theorem descrambleEffect_key2Len (p : Config.Params) (s : State) :
    (descrambleEffect p s).key2Len = s.key2Len := by simp [descrambleEffect]
@[simp] theorem descrambleEffect_fkey0 (p : Config.Params) (s : State) :
    (descrambleEffect p s).fkey0 = s.fkey0 := by simp [descrambleEffect]
@[simp] theorem descrambleEffect_fkey1 (p : Config.Params) (s : State) :
    (descrambleEffect p s).fkey1 = s.fkey1 := by simp [descrambleEffect]
@[simp] theorem descrambleEffect_fkey2 (p : Config.Params) (s : State) :
    (descrambleEffect p s).fkey2 = s.fkey2 := by simp [descrambleEffect]
@[simp] theorem descrambleEffect_fkey3 (p : Config.Params) (s : State) :
    (descrambleEffect p s).fkey3 = s.fkey3 := by simp [descrambleEffect]
@[simp] theorem descrambleEffect_mti (p : Config.Params) (s : State) :
    (descrambleEffect p s).mti = s.mti := by simp [descrambleEffect]
@[simp] theorem descrambleEffect_pairIdx (p : Config.Params) (s : State) :
    (descrambleEffect p s).pairIdx = s.pairIdx := by simp [descrambleEffect]
@[simp] theorem descrambleEffect_pairsLeft (p : Config.Params) (s : State) :
    (descrambleEffect p s).pairsLeft = 0 := by simp [descrambleEffect]
@[simp] theorem descrambleEffect_k1CurLen (p : Config.Params) (s : State) :
    (descrambleEffect p s).k1CurLen = s.k1CurLen := by simp [descrambleEffect]
@[simp] theorem descrambleEffect_k2CurLen (p : Config.Params) (s : State) :
    (descrambleEffect p s).k2CurLen = s.k2CurLen := by simp [descrambleEffect]
@[simp] theorem descrambleEffect_inflight (p : Config.Params) (s : State) :
    (descrambleEffect p s).inflight = s.inflight := by simp [descrambleEffect]
@[simp] theorem descrambleEffect_agenda (p : Config.Params) (s : State) :
    (descrambleEffect p s).agenda = s.agenda := by simp [descrambleEffect]
@[simp] theorem descrambleEffect_reads (p : Config.Params) (s : State) :
    (descrambleEffect p s).reads = s.reads := by simp [descrambleEffect]
@[simp] theorem descrambleEffect_output (p : Config.Params) (s : State) :
    (descrambleEffect p s).output = s.output := by simp [descrambleEffect]
@[simp] theorem descrambleEffect_draws (p : Config.Params) (s : State) :
    (descrambleEffect p s).draws = s.draws := by simp [descrambleEffect]
@[simp] theorem descrambleEffect_epoch (p : Config.Params) (s : State) :
    (descrambleEffect p s).epoch = s.epoch := by simp [descrambleEffect]

/-- The cursor after the four draws of a file key. -/
@[simp] theorem fileKeyEffect_mti (p : Config.Params) (s : State) : (fileKeyEffect p s).mti = 4#10 := by
  simp only [fileKeyEffect, State.drawFileKey, drawNext_mti, mtSeed_mti]
  rfl

/-! ### What a command does not look at -/

/-- `s` with other values in INFLIGHT, BUSY, and the model's own fields but `epoch`. -/
def State.others (s : State) (o : Option Instr) (b : Bool) (es : List Event) (rs : List Word)
    (out : List Byte) (n : Nat) : State :=
  { s with inflight := o, busy := b, agenda := es, reads := rs, output := out, draws := n }

variable (p : Config.Params) (s : State) (o : Option Instr) (b : Bool) (es : List Event) (rs : List Word)
  (out : List Byte) (n : Nat)

theorem twistIfDue_others : (s.others o b es rs out n).twistIfDue =
    s.twistIfDue.others o b es rs out n := by
  by_cases h : s.mti = 0#10
  · have h' : (s.others o b es rs out n).mti = 0#10 := h
    unfold State.twistIfDue
    rw [if_pos h, if_pos h']; rfl
  · have h' : ¬ (s.others o b es rs out n).mti = 0#10 := h
    unfold State.twistIfDue
    rw [if_neg h, if_neg h']

theorem drawNext_others : (s.others o b es rs out n).drawNext =
    s.drawNext.others o b es rs out n := by
  unfold State.drawNext; rw [twistIfDue_others]; rfl

theorem drawWord_others : (s.others o b es rs out n).drawWord =
    s.drawWord := by
  unfold State.drawWord; rw [twistIfDue_others]; rfl

theorem drawFileKey_others : (s.others o b es rs out n).drawFileKey =
    s.drawFileKey.others o b es rs out n := by
  unfold State.drawFileKey; simp only [drawNext_others, drawWord_others]; rfl

theorem fileKeyEffect_others : fileKeyEffect p (s.others o b es rs out n) =
    (fileKeyEffect p s).others o b es rs out n := by
  have hn : (s.others o b es rs out n).nameBytes = s.nameBytes := rfl
  have hs : ∀ v : Word, State.mtSeed { s.others o b es rs out n with seed := v } v =
      (State.mtSeed { s with seed := v } v).others o b es rs out n := fun _ => rfl
  unfold fileKeyEffect
  simp only [hn, hs, drawFileKey_others]
  rfl

theorem keyCopyEffect_others : keyCopyEffect p (s.others o b es rs out n) =
    (keyCopyEffect p s).others o b es rs out n := rfl

theorem keyXorEffect_others : keyXorEffect p (s.others o b es rs out n) =
    (keyXorEffect p s).others o b es rs out n := rfl

theorem descrambleEffect_others : descrambleEffect p (s.others o b es rs out n) =
    (descrambleEffect p s).others o b es rs out n := rfl

theorem prngNextEffect_others : prngNextEffect (s.others o b es rs out n) =
    (prngNextEffect s).others o b es rs out n := by
  unfold prngNextEffect; rw [drawNext_others, drawWord_others]; rfl

theorem fileSetupEffect_others : fileSetupEffect p (s.others o b es rs out n) =
    (fileSetupEffect p s).others o b es rs out n := by
  unfold fileSetupEffect
  rw [keyCopyEffect_others, fileKeyEffect_others, keyXorEffect_others, descrambleEffect_others]

/-- No effect looks at INFLIGHT, BUSY, the events to come, the host's record or the count of free words. -/
theorem completionEffect_others (i : Instr) :
    completionEffect p i (s.others o b es rs out n) = (completionEffect p i s).others o b es rs out n := by
  cases i
  case prngNext => exact prngNextEffect_others s o b es rs out n
  case fileKey => exact fileKeyEffect_others p s o b es rs out n
  case keyCopy => exact keyCopyEffect_others p s o b es rs out n
  case keyXor => exact keyXorEffect_others p s o b es rs out n
  case descramble => exact descrambleEffect_others p s o b es rs out n
  case fileSetup => exact fileSetupEffect_others p s o b es rs out n
  all_goals rfl

/-- No issue check looks at them either (R223: "Every issue check reads only state that no command in flight can
change"). -/
theorem issueCheck_others (i : Instr) : issueCheck p i (s.others o b es rs out n) = issueCheck p i s := by cases i <;> rfl

end Sys2Proof.Machine
end

