-- ==== Sys2Proof/Laws/HostAccess.lean ====
section
/-! SUPPORT. A step whose next event is a host access of an aligned word address: what it answers or stores. -/

namespace Sys2Proof.Machine

/-- An aligned word address below 2^18 has no problem (R60-R62). -/
theorem accessProblem_none {a : Nat} (ha : a % 4 = 0) (hl : a < 2 ^ 18) : accessProblem a 4 = none := by
  unfold accessProblem
  rw [if_neg (by simp), if_neg (show ¬ 2 ^ Config.addrWidth ≤ a by unfold Config.addrWidth; omega), if_neg (by omega)]

variable (s : State) (es : List Event) {a : Nat}

/-- A host read, as the next event. -/
theorem step_read (ha : a % 4 = 0) (hl : a < 2 ^ 18) :
    step (s.setAgenda (.host (.read a 4) :: es)) = .next ((s.setAgenda es).hostRead Config.thisHardware a) := by
  show hostStep Config.thisHardware exec (.read a 4) (s.setAgenda es) = _
  unfold hostStep HostAccess.problem
  simp only [accessProblem_none ha hl]

/-- A host write, as the next event. -/
theorem step_write (v : Word) (ha : a % 4 = 0) (hl : a < 2 ^ 18) :
    step (s.setAgenda (.host (.write a 4 v) :: es)) = hostWrite Config.thisHardware exec a v (s.setAgenda es) := by
  show hostStep Config.thisHardware exec (.write a 4 v) (s.setAgenda es) = _
  unfold hostStep HostAccess.problem
  simp only [accessProblem_none ha hl]

/-- A host read whose value is specified (R64-R71, R73). -/
theorem step_read_value (ha : a % 4 = 0) (hl : a < 2 ^ 18)
    (hc : s.busy = false ∨ Target.commandWritten (decodeAddr Config.thisHardware a) = false) :
    step (s.setAgenda (.host (.read a 4) :: es)) =
      .next { s with
        agenda := es, reads := s.targetValue Config.thisHardware (decodeAddr Config.thisHardware a) :: s.reads } := by
  rw [step_read s es ha hl]
  rcases hostRead_cases Config.thisHardware (s.setAgenda es) a with ⟨h1, h2, _⟩ | ⟨_, e⟩
  · exfalso
    rw [setAgenda_busy] at h1
    rcases hc with hc | hc
    · rw [hc] at h1; cases h1
    · rw [hc] at h2; cases h2
  · rw [e]; rfl

/-- A host read whose value is unspecified (R73). -/
theorem step_read_free (ha : a % 4 = 0) (hl : a < 2 ^ 18) (hb : s.busy = true)
    (hc : Target.commandWritten (decodeAddr Config.thisHardware a) = true) :
    step (s.setAgenda (.host (.read a 4) :: es)) =
      .next { s with agenda := es, reads := Config.busyRead s.draws :: s.reads, draws := s.draws + 1 } := by
  rw [step_read s es ha hl]
  rcases hostRead_cases Config.thisHardware (s.setAgenda es) a with ⟨_, _, e⟩ | ⟨h1 | h1, _⟩
  · rw [e]; rfl
  · rw [setAgenda_busy, hb] at h1; cases h1
  · rw [hc] at h1; cases h1

/-- In this hardware every byte of a word of the name window exists (R65). -/
theorem nameWindowWord_eq {q : Nat} (h : q < 64) :
    s.nameWindowWord Config.thisHardware q =
      s.nameByte (4 * q + 3) ++ s.nameByte (4 * q + 2) ++ s.nameByte (4 * q + 1) ++ s.nameByte (4 * q) := by
  have hk : ∀ j < 256, s.nameWindowByte Config.thisHardware j = s.nameByte j := fun j hj => if_pos hj
  unfold State.nameWindowWord
  rw [hk _ (by omega), hk _ (by omega), hk _ (by omega), hk _ (by omega)]
  rfl

end Sys2Proof.Machine
end

