-- ==== Sys2Proof/Laws/Lists.lean ====
section
/-! SUPPORT. What the list functions of the PRNG and of the Feistel core leave: lengths, and which element each step
touches. -/

namespace Sys2Proof.Machine

@[simp] theorem seedTail_length (n i : Nat) (prev : Word) : (seedTail n i prev).length = n := by
  induction n generalizing i prev with
  | zero => rfl
  | succ n ih => simp [seedTail, ih]

@[simp] theorem mtInit_length (v : Word) : (mtInit v).length = 624 := by simp [mtInit, mtWords]

@[simp] theorem twistStep_length (mt : List Word) (i : Nat) : (twistStep mt i).length = mt.length := by simp [twistStep]

/-- A fold of steps that keep the length keeps the length. -/
theorem foldl_length {β : Type} (f : List Word → β → List Word) (hf : ∀ l b, (f l b).length = l.length) (bs : List β)
    (l : List Word) : (bs.foldl f l).length = l.length := by
  induction bs generalizing l with
  | nil => rfl
  | cons b bs ih => rw [List.foldl_cons, ih, hf]

@[simp] theorem twist_length (mt : List Word) : (twist mt).length = mt.length := foldl_length _ twistStep_length _ _

/-- A step of the twist leaves the other words. -/
theorem twistStep_getD_ne (mt : List Word) {i j : Nat} (h : i ≠ j) (d : Word) :
    (twistStep mt i).getD j d = mt.getD j d := by
  simp [twistStep, List.getD, List.getElem?_set_ne h]

@[simp] theorem xorFileKey_length (s : State) (ws : List Word) : (xorFileKey s ws).length = ws.length := by
  simp [xorFileKey]

@[simp] theorem fillK1_k1_length (c : Chain) (n : Nat) : (c.fillK1 n).k1.length = c.k1.length := by simp [Chain.fillK1]

@[simp] theorem fillK1_k2 (c : Chain) (n : Nat) : (c.fillK1 n).k2 = c.k2 := rfl

@[simp] theorem fillK2_k2_length (c : Chain) (n : Nat) : (c.fillK2 n).k2.length = c.k2.length := by simp [Chain.fillK2]

@[simp] theorem fillK2_k1 (c : Chain) (n : Nat) : (c.fillK2 n).k1 = c.k1 := rfl

end Sys2Proof.Machine
end

