-- ==== Sys2Proof/Laws/PerInstr.lean ====
section
/-! SUPPORT. Statements for all instructions, one lemma per constructor of `Instr`. -/

namespace Sys2Proof.Laws

/-- The encoding of a command, as the decoder and as the opcode table read it: the whole word is fixed, RSV is 0, and
both the decoder and the table's numbering of bits give the command back (R90, R91, R94). -/
def EncodeDecode.Statement (i : Instr) : Prop :=
  decode (encode i) = .ok i ∧ reservedField (encode i) = 0 ∧ decodeTableWord 32 (encode i).toNat = some i

theorem EncodeDecode.nop : EncodeDecode.Statement .nop := ⟨rfl, rfl, rfl⟩
theorem EncodeDecode.errClear : EncodeDecode.Statement .errClear := ⟨rfl, rfl, rfl⟩
theorem EncodeDecode.prngSeed : EncodeDecode.Statement .prngSeed := ⟨rfl, rfl, rfl⟩
theorem EncodeDecode.prngNext : EncodeDecode.Statement .prngNext := ⟨rfl, rfl, rfl⟩
theorem EncodeDecode.nameSeed : EncodeDecode.Statement .nameSeed := ⟨rfl, rfl, rfl⟩
theorem EncodeDecode.nameSeedRaw : EncodeDecode.Statement .nameSeedRaw := ⟨rfl, rfl, rfl⟩
theorem EncodeDecode.fileKey : EncodeDecode.Statement .fileKey := ⟨rfl, rfl, rfl⟩
theorem EncodeDecode.keyCopy : EncodeDecode.Statement .keyCopy := ⟨rfl, rfl, rfl⟩
theorem EncodeDecode.keyXor : EncodeDecode.Statement .keyXor := ⟨rfl, rfl, rfl⟩
theorem EncodeDecode.descramble : EncodeDecode.Statement .descramble := ⟨rfl, rfl, rfl⟩
theorem EncodeDecode.fileSetup : EncodeDecode.Statement .fileSetup := ⟨rfl, rfl, rfl⟩
theorem EncodeDecode.blockEnc : EncodeDecode.Statement .blockEnc := ⟨rfl, rfl, rfl⟩
theorem EncodeDecode.blockDec : EncodeDecode.Statement .blockDec := ⟨rfl, rfl, rfl⟩
theorem EncodeDecode.sfunc : EncodeDecode.Statement .sfunc := ⟨rfl, rfl, rfl⟩
theorem EncodeDecode.streamBegin : EncodeDecode.Statement .streamBegin := ⟨rfl, rfl, rfl⟩
theorem EncodeDecode.streamPair : EncodeDecode.Statement .streamPair := ⟨rfl, rfl, rfl⟩

end Sys2Proof.Laws
end

