-- ==== Sys2Proof/Tests/Slice0.lean ====
section
/-! SUPPORT. Tests on fixed values, and for each obligation with hypotheses a witness that they can be met. The expected
values come from spec/30_encoding.md R94 (words) and spec/95_test_vectors.md (V1-V60), as each docstring says. -/

namespace Sys2Proof.Machine.Tests

/-! ### Helpers -/

/-- A view of the state that the completion of `i` from `s` leaves. -/
def done {α : Type} (i : Instr) (s : State) (view : State → α) : Option α :=
  match exec i (s.accept i) with
  | .next t => some (view t)
  | .fault _ => none
  | .refused _ => none

/-- A view of the state that the issue of `i` in `s` leaves. -/
def issued {α : Type} (i : Instr) (s : State) (view : State → α) : Option α :=
  match exec i s with
  | .next t => some (view t)
  | .fault _ => none
  | .refused _ => none

/-- A view of the state that one event leaves. -/
def stepped {α : Type} (e : Event) (s : State) (view : State → α) : Option α :=
  match step (s.setAgenda [e]) with
  | .next t => some (view t)
  | .fault _ => none
  | .refused _ => none

/-- Why one event is refused. -/
def refusal (e : Event) (s : State) : Option Refusal :=
  match step (s.setAgenda [e]) with
  | .next _ => none
  | .fault _ => none
  | .refused r => some r

/-- The test key1 of spec/95_test_vectors.md. -/
def rawKey1 : List Word := (List.range 18).map (fun i => 0x11111111 * BitVec.ofNat 32 (i + 1))

/-- The test key2 of spec/95_test_vectors.md. -/
def rawKey2 : List Word := (List.range 1024).map (fun i => BitVec.ofNat 32 i * 0x9E3779B9 + 0x7F4A7C15)

/-- A state with a name in the name buffer. -/
def named (str : List Byte) : State :=
  { State.reset with mem := cellsFrom 0x00100 str, nameLen := BitVec.ofNat 16 str.length }

/-- The name "LEVEL1.DAT". -/
def levelName : List Byte := [0x4C, 0x45, 0x56, 0x45, 0x4C, 0x31, 0x2E, 0x44, 0x41, 0x54]

/-- A state in which every command is accepted: keys ready, a stream of one pair, lengths and name at their bounds. -/
def allAccepted : State :=
  { State.reset with
      prngValid := true, fkeyValid := true, keysCopied := true, keysReady := true, streamActive := true, pairsLeft := 1,
      pairIdx := 5, k1CurLen := 18, k2CurLen := 4096, key1Len := 1024, key2Len := 1024, nameLen := 256, arg0 := 16,
      mti := 623, mem := [(0x100, 0x2F), (0x8000, 7)] }

/-! ### Well-formedness: each check refuses an ill-formed access (R61, R62, U5) -/

theorem test_wf_width : HostAccess.wellFormed (.read 0x00008 2) = false ∧ HostAccess.problem (.read 0x00008 2) = some .width := by
  decide

theorem test_wf_range :
    HostAccess.wellFormed (.write 0x40000 4 0) = false ∧ HostAccess.problem (.write 0x40000 4 0) = some .range := by decide

theorem test_wf_misaligned :
    HostAccess.wellFormed (.read 0x00006 4) = false ∧ HostAccess.problem (.read 0x00006 4) = some .misaligned := by decide

theorem test_wf_last_word : HostAccess.wellFormed (.read 0x3FFFC 4) = true := by decide

theorem test_wf_event : Event.wellFormed (.host (.read 0x00006 4)) = false ∧ Event.wellFormed .reset = true := by decide

theorem test_refused_width : refusal (.host (.write 0x00008 1 0)) State.reset = some .unsupportedWidth := by decide

theorem test_refused_range : refusal (.host (.read 0x40000 4)) State.reset = some .addressOutOfRange := by decide

theorem test_refused_misaligned : refusal (.host (.read 0x00002 4)) State.reset = some .misalignedAccess := by decide

/-! ### Decoding: each word written out from the columns RSV, OPC of R94 -/

theorem test_decode_nop : decode 0b000000000000000000000000_00000000 = .ok .nop := by decide
theorem test_decode_errClear : decode 0b000000000000000000000000_00000001 = .ok .errClear := by decide
theorem test_decode_prngSeed : decode 0b000000000000000000000000_00010000 = .ok .prngSeed := by decide
theorem test_decode_prngNext : decode 0b000000000000000000000000_00010001 = .ok .prngNext := by decide
theorem test_decode_nameSeed : decode 0b000000000000000000000000_00100000 = .ok .nameSeed := by decide
theorem test_decode_nameSeedRaw : decode 0b000000000000000000000000_00100001 = .ok .nameSeedRaw := by decide
theorem test_decode_fileKey : decode 0b000000000000000000000000_00100010 = .ok .fileKey := by decide
theorem test_decode_keyCopy : decode 0b000000000000000000000000_00110000 = .ok .keyCopy := by decide
theorem test_decode_keyXor : decode 0b000000000000000000000000_00110001 = .ok .keyXor := by decide
theorem test_decode_descramble : decode 0b000000000000000000000000_00110010 = .ok .descramble := by decide
theorem test_decode_fileSetup : decode 0b000000000000000000000000_00110011 = .ok .fileSetup := by decide
theorem test_decode_blockEnc : decode 0b000000000000000000000000_00110100 = .ok .blockEnc := by decide
theorem test_decode_blockDec : decode 0b000000000000000000000000_00110101 = .ok .blockDec := by decide
theorem test_decode_sfunc : decode 0b000000000000000000000000_00110110 = .ok .sfunc := by decide
theorem test_decode_streamBegin : decode 0b000000000000000000000000_01000000 = .ok .streamBegin := by decide
theorem test_decode_streamPair : decode 0b000000000000000000000000_01000001 = .ok .streamPair := by decide

/-- R92 and V60: RSV not 0, and OPC not in the map. -/
theorem test_decode_illegal :
    decode 0x00000111 = .error .reservedNotZero ∧ decode 0x80000000 = .error .reservedNotZero ∧
      decode 0x00000002 = .error .unknownOpcode ∧ decode 0x00000042 = .error .unknownOpcode ∧
      decode 0x000000FF = .error .unknownOpcode := by decide

theorem test_decodeTableWord : decodeTableWord 32 0x33 = some .fileSetup ∧ decodeTableWord 8 0x33 = some .fileSetup := by
  decide

/-- The command that withFetchWord places runs at the next step. -/
theorem test_withFetchWord :
    (match step (State.reset.withFetchWord 32 0x10) with
      | .next t => t.inflight
      | .fault _ => none
      | .refused _ => none) = some .prngSeed := by decide

/-! ### One step of each command -/

/-- V60: NOP changes nothing but BUSY for its duration. -/
theorem test_nop : done .nop State.reset id = some State.reset := by decide

/-- R211: ERR_CLEAR is accepted while ERR is not 0, and clears it. -/
theorem test_errClear :
    issued .errClear { State.reset with err := 3 } (fun t => (t.inflight, t.err)) = some (some .errClear, 3) ∧
      done .errClear { State.reset with err := 3 } id = some State.reset := by decide

/-- V1: MT[1] and MT[623] of seed 5489. -/
theorem test_prngSeed :
    done .prngSeed { State.reset with arg0 := 5489 } (fun t => (t.mtWord 0, t.mtWord 1, t.mtWord 623, t.mti, t.prngValid)) =
      some (0x1571, 0x4D98EE96, 0x04C46D8C, 0, true) := by decide +kernel

/-- V2: MT[0] after the first twist of seed 5489, and the first draw. -/
theorem test_first_draw :
    (twist (mtInit 5489)).getD 0 0 = 0x9B0AFA27 ∧ temper 0x9B0AFA27 = 0xD091BB5C := by decide +kernel

/-- V3 and R114: a draw at MTI = 623 tempers that word and wraps the cursor. -/
theorem test_prngNext :
    done .prngNext { State.reset with mti := 623, mem := cellsFrom 0x309BC [0x78, 0x56, 0x34, 0x12] }
      (fun t => (t.result, t.mti)) = some (0x2B7E4A2D, 0) := by decide +kernel

/-- V6: PRNG_NEXT from reset gives NOT_SEEDED. -/
theorem test_prngNext_notSeeded : issued .prngNext State.reset (fun t => t.statusWord) = some 0x00000400 := by decide

/-- V11: "data/sub/level1.dat". -/
theorem test_nameSeed :
    done .nameSeed (named [0x64, 0x61, 0x74, 0x61, 0x2F, 0x73, 0x75, 0x62, 0x2F, 0x6C, 0x65, 0x76, 0x65, 0x6C, 0x31, 0x2E,
      0x64, 0x61, 0x74]) (fun t => t.seed) = some 0xB578F1F1 := by decide +kernel

/-- V15: NAME_LEN = 257 gives code 7 and leaves SEED. -/
theorem test_nameSeed_nameLen :
    issued .nameSeed { State.reset with nameLen := 257 } (fun t => (t.statusWord, t.seed)) = some (0x00000700, 0) := by
  decide

/-- V10: "LEVEL1.DAT" raw, and the empty name. -/
theorem test_nameSeedRaw :
    done .nameSeedRaw (named levelName) (fun t => t.seed) = some 0x8B7917F6 ∧
      done .nameSeedRaw (named []) (fun t => t.seed) = some 0x19570320 := by decide +kernel

/-- V13: the seed, MTI and STATUS that FILE_KEY leaves for "LEVEL1.DAT". -/
theorem test_fileKey :
    done .fileKey (named levelName) (fun t => (t.seed, t.mti, t.statusWord)) = some (0xB578F1F1, 4, 0x00000006) := by
  decide +kernel

/-- V13: FKEY0-3 for that seed. -/
theorem test_fileKey_draws :
    ((twist (mtInit 0xB578F1F1)).take 4).map (fun y => bswap (temper y)) =
      [0xFC25DF07, 0x67C3F286, 0x8CF47C82, 0xD16F2FF5] := by decide +kernel

/-- V20: the lengths and STATUS after KEY_COPY, and its first word. -/
theorem test_keyCopy :
    done .keyCopy { State.reset with
        key1Len := 18, key2Len := 1024, mem := cellsFrom 0x04000 [0x11, 0x11, 0x11, 0x11, 0x22, 0x22, 0x22, 0x22] }
      (fun t => (t.k1Word 0, t.k1Word 1, t.k1CurLen, t.k2CurLen, t.statusWord)) =
      some (0x11111111, 0x22222222, 0x12, 0x400, 0x00000008) := by decide +kernel

/-- V20: CONFIG from reset and for KEY1_LEN = 19. -/
theorem test_keyCopy_config :
    issued .keyCopy State.reset (fun t => t.statusWord) = some 0x00000100 ∧
      issued .keyCopy { State.reset with key1Len := 19, key2Len := 1024 } (fun t => t.statusWord) = some 0x00000100 := by
  decide

/-- V21: K1[4] = 55555555 xor FKEY0, and word 1 with FKEY1. -/
theorem test_keyXor :
    done .keyXor { (State.reset.storeK1 Config.thisHardware rawKey1) with
        keysCopied := true, k1CurLen := 18, fkey0 := 0xFC25DF07, fkey1 := 0x67C3F286 }
      (fun t => (t.k1Word 4, t.k1Word 1)) = some (0xA9708A52, 0x45E1D0A4) := by decide +kernel

/-- V21: KEY_XOR from reset. -/
theorem test_keyXor_sequence : issued .keyXor State.reset (fun t => t.statusWord) = some 0x00000500 := by decide

/-- V24: the chain's first pair on the raw test keys is F(0, 0). -/
theorem test_descramble_first_pair :
    (descrambleChain rawKey1 rawKey2 2 0).k1.take 2 = [0xD933FE19, 0x96D11324] := by decide +kernel

/-- R161: DESCRAMBLE sets KEYS_READY and stops a stream. -/
theorem test_descramble :
    done .descramble { allAccepted with keysReady := false } (fun t => (t.keysReady, t.streamActive, t.pairsLeft, t.pairIdx)) =
      some (true, false, 0, 5) := by decide +kernel

/-- V22: STATUS after FILE_SETUP, with the seed and MTI of V13. -/
theorem test_fileSetup :
    done .fileSetup { named levelName with key1Len := 18, key2Len := 1024 } (fun t => (t.statusWord, t.seed, t.mti)) =
      some (0x0000001E, 0xB578F1F1, 4) := by decide +kernel

/-- R226: CONFIG comes before NAME_LEN. -/
theorem test_fileSetup_order : issued .fileSetup { State.reset with nameLen := 257 } (fun t => t.err) = some 1 := by decide

/-- V18: F and R on the raw test keys. -/
theorem test_forward : forward rawKey1 rawKey2 (0x01234567, 0x89ABCDEF) = (0xF9FFC4B6, 0xD8CD65A8) := by decide +kernel
theorem test_reverse : reverse rawKey1 rawKey2 (0x01234567, 0x89ABCDEF) = (0xE8EDCD84, 0x5029ECF0) := by decide +kernel

/-- V16: S(0x01020304) on raw key2; only the four words it reads are written. -/
theorem test_sfunc :
    done .sfunc { State.reset with
        arg0 := 0x01020304,
        mem := cellsFrom 0x20004 (bytesOfWord (rawKey2.getD 1 0)) ++ cellsFrom 0x20408 (bytesOfWord (rawKey2.getD 0x102 0)) ++
          cellsFrom 0x2080C (bytesOfWord (rawKey2.getD 0x203 0)) ++ cellsFrom 0x20C10 (bytesOfWord (rawKey2.getD 0x304 0)) }
      (fun t => t.result) = some 0xF7EEF78E := by decide +kernel

/-- R163-R165: BLOCK_ENC, BLOCK_DEC and SFUNC need KEYS_COPIED. -/
theorem test_block_sequence :
    issued .blockEnc State.reset (fun t => t.err) = some 5 ∧ issued .blockDec State.reset (fun t => t.err) = some 5 ∧
      issued .sfunc State.reset (fun t => t.err) = some 5 := by decide

/-- V40 and the last row of V43. -/
theorem test_streamBegin :
    done .streamBegin { allAccepted with arg0 := 48 } (fun t => (t.pairsLeft, t.pairIdx, t.statusWord)) =
        some (6, 0, 0x0000003E) ∧
      done .streamBegin { allAccepted with arg0 := 0xFFFFFFF8 } (fun t => t.pairsLeft) = some 0x1FFFFFFF := by decide +kernel

/-- V41, V43: INPUT_SIZE, but SEQUENCE while KEYS_READY = 0. -/
theorem test_streamBegin_errors :
    issued .streamBegin { allAccepted with arg0 := 12 } (fun t => (t.err, t.pairsLeft)) = some (2, 1) ∧
      issued .streamBegin { allAccepted with keysReady := false, arg0 := 10 } (fun t => t.err) = some 5 := by decide

/-- V50: EMIT of pair 1 is 0, of pair 2 it is 1; the last pair ends the stream. -/
theorem test_streamPair :
    done .streamPair { allAccepted with pairIdx := 1, pairsLeft := 5 } (fun t => (t.emit, t.pairIdx, t.streamActive)) =
        some (false, 2, true) ∧
      done .streamPair { allAccepted with pairIdx := 2 } (fun t => (t.emit, t.pairIdx, t.pairsLeft, t.streamActive)) =
        some (true, 3, 0, false) := by decide +kernel

/-- V51: STREAM_PAIR from reset. -/
theorem test_streamPair_sequence : issued .streamPair State.reset (fun t => t.statusWord) = some 0x00000500 := by decide

/-! ### The bus -/

/-- V15: NAME_LEN stores bits 15:0. -/
theorem test_nameLen_write : stepped (.host (.write 0x01C 4 0x00012345)) State.reset (fun t => t.nameLen) = some 0x2345 := by
  decide

/-- R65's packing: byte 0 of the word is NAME[0]. -/
theorem test_name_write :
    stepped (.host (.write 0x100 4 0x4556454C)) State.reset (fun t => (t.nameByte 0, t.nameByte 3)) = some (0x4C, 0x45) := by
  decide +kernel

/-- V60: CMD reads 0, ID its constant, a reserved offset 0. -/
theorem test_reads :
    stepped (.host (.read 0x000 4)) State.reset (fun t => t.reads) = some [0] ∧
      stepped (.host (.read 0x04C 4)) State.reset (fun t => t.reads) = some [0x42425401] ∧
      stepped (.host (.read 0x050 4)) State.reset (fun t => t.reads) = some [0] := by decide +kernel

/-- V60: an illegal word gives code 3, and then KEY_XOR's word is dropped. -/
theorem test_illegal_then_dropped :
    stepped (.host (.write 0x000 4 0x00000111)) State.reset (fun t => t.statusWord) = some 0x00000300 ∧
      stepped (.host (.write 0x000 4 0x00000031)) { State.reset with err := 3 } (fun t => t.statusWord) = some 0x00000300 := by
  decide +kernel

/-- R98: `check` keeps the host's later events while ERR = 0 and drops them else. -/
theorem test_check :
    (match step ({ State.reset with err := 2 }.setAgenda [.check, .host (.read 0 4), .engine, .reset]) with
      | .next t => t.agenda
      | .fault _ => []
      | .refused _ => []) = [.engine, .reset] := by decide +kernel

/-- The words read, newest first, and the events left after `k` steps. -/
def after : Nat → State → List Word × List Event × List Byte
  | 0, s => (s.reads, s.agenda, s.output)
  | k + 1, s =>
    match step s with
    | .next t => after k t
    | .fault _ => ([], [], [])
    | .refused _ => ([], [], [])

/-- R97, R99: `run PRNG_NEXT` from reset is refused with NOT_SEEDED, and its `wait` reads STATUS once, whatever the
latency would have been. -/
theorem test_wait_refused :
    after 2 (State.reset.setAgenda (HostStmt.events (.run .prngNext 3))) = ([0x00000400], [], []) := by decide +kernel

/-- R97, R99: the `wait` of an accepted command reads STATUS until bit 0 is 0: twice 1 here, then the engine's turn,
then 0. -/
theorem test_wait_accepted :
    after 5 (State.reset.setAgenda (HostStmt.events (.run .nop 2))) = ([0, 1, 1], [], []) := by decide +kernel

/-- R197 step 5: with EMIT = 1 the host reads STATUS, A and B and appends A then B; with EMIT = 0 it reads STATUS only. -/
theorem test_collect :
    after 4 ({ State.reset with emit := true, a := 0x50000004, b := 0x50000005 }.setAgenda [.collect]) =
        ([0x50000005, 0x50000004, 0x40], [], [0x04, 0, 0, 0x50, 0x05, 0, 0, 0x50]) ∧
      after 1 ({ State.reset with a := 1 }.setAgenda [.collect]) = ([0], [], []) := by decide +kernel

/-- R8: a block with other capacities, at the ends of their ranges. -/
def smallBlock : Config.Params where
  k1Max := 18
  k2Max := 16384
  nameMax := 1
  pathSeps := [0x2F, 0x5C]
  k1Max_legal := by decide
  k2Max_legal := by decide
  nameMax_legal := by decide

/-- R8: KEY1_LEN = 20, legal in this hardware, is CONFIG there, NAME_LEN = 2 is NAME_LEN, and NAME[1..3] do not exist. -/
theorem test_parameters :
    issueCheck smallBlock .keyCopy { State.reset with key1Len := 20, key2Len := 1024 } = some .config ∧
      issueCheck Config.thisHardware .keyCopy { State.reset with key1Len := 20, key2Len := 1024 } = none ∧
      issueCheck smallBlock .nameSeed { State.reset with nameLen := 2 } = some .nameLen ∧
      decodeAddr smallBlock 0x00104 = .reserved ∧ pathSegment smallBlock.pathSeps [0x2F, 0x41, 0x5C, 0x42] = [0x42] := by
  decide +kernel

/-- R98: the writes of a `name` statement of five bytes; the missing bytes are 0. -/
theorem test_name_statement :
    HostStmt.events (.name [0x41, 0x42, 0x43, 0x44, 0x45]) =
      [.host (.write 0x100 4 0x44434241), .host (.write 0x104 4 0x00000045), .host (.write 0x01C 4 5)] := by decide +kernel

/-- V50: the bytes of the first emitted pair. -/
theorem test_output_bytes :
    outputBytes [(0, 0), (0, 0), (0x50000004, 0x50000005)] = [0x04, 0, 0, 0x50, 0x05, 0, 0, 0x50] := by decide +kernel

/-! ### Witnesses: the hypotheses of each obligation can be met, each clause at a boundary of its range -/

theorem witness_DecodeAndEncodeAreInverse :
    (∀ i ∈ [Instr.nop, .streamPair], i.wellFormed = true) ∧ decode 0x00000041 = .ok .streamPair := by decide

theorem witness_StepRunsTheCommandWritten : State.reset.busy = false ∧ decode 0x00000041 = .ok .streamPair := by decide

theorem witness_EngineTurnRunsTheCommandInFlight :
    (allAccepted.accept .streamPair).inflight = some .streamPair ∧ State.reset.inflight = none := by decide

/-- One state in which every command's conditions hold, and one with ERR ≠ 0 in which ERR_CLEAR's do. -/
theorem witness_AcceptedCommandGoesInFlight :
    (∀ i, Idle allAccepted ∧ allAccepted.err = 0#4 ∧ IssueConditions i allAccepted) ∧
      Idle { State.reset with err := 7 } ∧ IssueConditions .errClear { State.reset with err := 7 } := by
  refine ⟨fun i => ⟨⟨rfl, rfl⟩, rfl, ?_⟩, ⟨rfl, rfl⟩, trivial⟩
  cases i <;> simp only [IssueConditions, LegalLengths] <;> decide

theorem witness_AcceptedCommandCompletesInTwoSteps :
    ∀ i, Idle allAccepted ∧ allAccepted.agenda = [] ∧ allAccepted.err = 0#4 ∧ IssueConditions i allAccepted := by
  refine fun i => ⟨⟨rfl, rfl⟩, rfl, rfl, ?_⟩
  cases i <;> simp only [IssueConditions, LegalLengths] <;> decide

theorem witness_IllegalWordRaisesIllegal :
    State.reset.busy = false ∧ State.reset.err = 0#4 ∧
      (0x00000100 : Word).extractLsb' 8 24 ≠ 0 ∧ (0xFFFFFFFF : Word).extractLsb' 8 24 ≠ 0 ∧
      (0x00000042 : Word).extractLsb' 0 8 ∉ ([0x00, 0x01, 0x10, 0x11, 0x20, 0x21, 0x22, 0x30, 0x31, 0x32, 0x33, 0x34, 0x35,
        0x36, 0x40, 0x41] : List Byte) := by decide

/-- Each way to miss a step: reset misses all of them, the second state only the file key. -/
theorem witness_MissingEarlierStepIsRecorded :
    (Idle State.reset ∧ State.reset.err = 0#4 ∧ State.reset.prngValid = false ∧ State.reset.keysCopied = false ∧
      State.reset.keysReady = false ∧ State.reset.streamActive = false) ∧
      Idle { State.reset with keysCopied := true } ∧ { State.reset with keysCopied := true }.fkeyValid = false :=
  ⟨⟨⟨rfl, rfl⟩, rfl, rfl, rfl, rfl, rfl⟩, ⟨rfl, rfl⟩, rfl⟩

/-- Key lengths just outside their ranges and odd ones, a name length just above 256, sizes 1 and 12. -/
theorem witness_BadOperandIsRecorded :
    (∀ n ∈ [(0, 0), (16, 1024), (19, 1024), (1026, 1024), (18, 1022), (18, 1025), (18, 4098)],
      Idle { State.reset with key1Len := BitVec.ofNat 16 n.1, key2Len := BitVec.ofNat 16 n.2 } ∧
        ¬ LegalLengths { State.reset with key1Len := BitVec.ofNat 16 n.1, key2Len := BitVec.ofNat 16 n.2 }.key1Len.toNat
          { State.reset with key1Len := BitVec.ofNat 16 n.1, key2Len := BitVec.ofNat 16 n.2 }.key2Len.toNat) ∧
      (Idle { allAccepted with nameLen := 257 } ∧ 256 < { allAccepted with nameLen := 257 }.nameLen.toNat ∧
        LegalLengths { allAccepted with nameLen := 257 }.key1Len.toNat { allAccepted with nameLen := 257 }.key2Len.toNat) ∧
      ∀ n ∈ [1, 12, 0xFFFFFFFF],
        Idle { allAccepted with arg0 := BitVec.ofNat 32 n } ∧ { allAccepted with arg0 := BitVec.ofNat 32 n }.keysReady = true ∧
          { allAccepted with arg0 := BitVec.ofNat 32 n }.arg0.toNat % 8 ≠ 0 := by
  simp only [Idle, LegalLengths]; decide +kernel

theorem witness_StickyErrorDropsEveryOtherWord :
    Idle { State.reset with err := 3 } ∧ { State.reset with err := 3 }.err ≠ 0#4 ∧ (0x00000031 : Word) ≠ 0x00000001 ∧
      (0xFFFFFFFF : Word) ≠ 0x00000001 := by
  simp only [Idle]; decide

theorem witness_BusyDropsEveryHostWrite :
    (State.reset.accept .nop).busy = true ∧ ∀ a ∈ [0x00000, 0x3FFFC], a % 4 = 0 ∧ a < 2 ^ 18 := by decide

/-- A state with a stream running, a command in flight and bytes in the arrays. -/
theorem witness_EveryStepKeepsTheInvariant :
    Inv (allAccepted.accept .streamPair) ∧ ∃ t, step (allAccepted.accept .streamPair) = .next t :=
  ⟨{ busy_iff_inflight := by decide
     active_iff_pairsLeft := by decide
     ready_copied := by decide
     active_ready := by decide
     copied_lens := by decide
     mti_lt := by decide
     err_le := by decide
     inflight_checked := by intro i h; cases h; rfl
     pairs_bound := by decide
     mem_wf := by decide
     mem_inArrays := by decide }, _, rfl⟩

/-- Reset, and a state one step later with a command in flight. -/
theorem witness_ReachableStatesKeepTheFlagsConsistent :
    Reachable State.reset ∧ Reachable (State.reset.accept .nop) :=
  ⟨.start [], .step (.start [.host (.write 0x00000 4 0x00000000)]) rfl⟩

theorem witness_ValidFlagsAreClearedOnlyByReset :
    (∀ es, (allAccepted.accept .prngSeed).agenda ≠ .reset :: es) ∧
      (∃ t, step (allAccepted.accept .prngSeed) = .next t) ∧ allAccepted.prngValid = true ∧ allAccepted.fkeyValid = true ∧
      allAccepted.keysCopied = true :=
  ⟨fun _ h => (by cases h), ⟨_, rfl⟩, rfl, rfl, rfl⟩

theorem witness_CompletionCannotFail : ∀ i, (State.reset.accept i).inflight = some i := fun _ => rfl

theorem witness_CommandsDoNotSeeTheHostsRecord : ∃ t, exec .streamBegin (allAccepted.accept .streamBegin) = .next t :=
  ⟨_, rfl⟩

/-- NOP is in no row of the "writes" column, ERR_CLEAR in one; both complete. -/
theorem witness_CommandsWriteOnlyTheirRow :
    ∀ i ∈ [Instr.nop, .errClear], (allAccepted.accept i).inflight = some i ∧ ∃ t, exec i (allAccepted.accept i) = .next t := by
  intro i _
  exact ⟨rfl, exec_next i _⟩

theorem witness_CommandsNeverWriteKeySourcesOrName :
    (∃ t, exec .fileSetup (allAccepted.accept .fileSetup) = .next t) ∧
      ∀ x ∈ [0x00100, 0x001FF, 0x04000, 0x07FFF, 0x10000, 0x1FFFF],
        (0x00100 ≤ x ∧ x < 0x00200) ∨ (0x04000 ≤ x ∧ x < 0x08000) ∨ (0x10000 ≤ x ∧ x < 0x20000) :=
  ⟨exec_next _ _, by decide⟩

theorem witness_ControlCommandsTouchOnlyErr :
    (State.reset.accept .nop).inflight = some .nop ∧ (State.reset.accept .errClear).inflight = some .errClear := by decide

theorem witness_SeedFillsTheRecurrence : (State.reset.accept .prngSeed).inflight = some .prngSeed := rfl

theorem witness_DrawTempersTheWordAtTheCursor :
    ∀ m ∈ [1, 623],
      ({ State.reset with mti := BitVec.ofNat 10 m }.accept .prngNext).inflight = some .prngNext ∧
        ({ State.reset with mti := BitVec.ofNat 10 m }.accept .prngNext).mti ≠ 0#10 ∧
        ({ State.reset with mti := BitVec.ofNat 10 m }.accept .prngNext).mti.toNat < 624 := by decide

theorem witness_DrawAtZeroTwistsInPlace :
    (State.reset.accept .prngNext).inflight = some .prngNext ∧ (State.reset.accept .prngNext).mti = 0#10 := by decide

theorem witness_NameCommandsWriteOnlySeed :
    ((named levelName).accept .nameSeed).inflight = some .nameSeed ∧
      ((named levelName).accept .nameSeedRaw).inflight = some .nameSeedRaw := by decide

/-- The first and the last letter, and their neighbours. -/
theorem witness_UppercasingMovesOnlyTheLetters :
    (∀ n ∈ [0x61, 0x7A], 0x61 ≤ (BitVec.ofNat 8 n).toNat ∧ (BitVec.ofNat 8 n).toNat ≤ 0x7A) ∧
      ∀ n ∈ [0x60, 0x7B, 0xE9], ¬ (0x61 ≤ (BitVec.ofNat 8 n).toNat ∧ (BitVec.ofNat 8 n).toNat ≤ 0x7A) := by decide

/-- A byte that discards what came before it: 0x01 at index 1. -/
theorem witness_SeedHashFollowsItsRecurrence : (0x01 : Byte) >>> (([0x41] : List Byte).length % 4) = 0 := by decide

theorem witness_NormalizationCutsAtTheLastSlashAndDot :
    (0x2F : Byte) ∉ levelName ∧ (0x2E : Byte) ∉ ([0x44, 0x41, 0x54] : List Byte) := by decide

theorem witness_FileKeyIsFourSwappedDraws : ((named levelName).accept .fileKey).inflight = some .fileKey := rfl

/-- The least and the greatest legal key lengths. -/
theorem witness_KeyCopyCopiesTheSources :
    ∀ n ∈ [(18, 1024), (1024, 4096)],
      ({ State.reset with key1Len := BitVec.ofNat 16 n.1, key2Len := BitVec.ofNat 16 n.2 }.accept .keyCopy).inflight =
          some .keyCopy ∧
        LegalLengths
          ({ State.reset with key1Len := BitVec.ofNat 16 n.1, key2Len := BitVec.ofNat 16 n.2 }.accept .keyCopy).key1Len.toNat
          ({ State.reset with key1Len := BitVec.ofNat 16 n.1, key2Len := BitVec.ofNat 16 n.2 }.accept .keyCopy).key2Len.toNat := by
  simp only [LegalLengths]; decide

theorem witness_KeyXorCyclesTheFileKey :
    (allAccepted.accept .keyXor).inflight = some .keyXor ∧ (allAccepted.accept .keyXor).k1CurLen.toNat ≤ 1024 ∧
      ({ allAccepted with k1CurLen := 1024 }.accept .keyXor).k1CurLen.toNat ≤ 1024 := by decide

theorem witness_KeyXorTwiceRestoresTheKeys : (allAccepted.accept .keyXor).inflight = some .keyXor := rfl

theorem witness_DescrambleChainsInPlace :
    ∀ n ∈ [(18, 1024), (1024, 4096)],
      ({ allAccepted with k1CurLen := BitVec.ofNat 16 n.1, k2CurLen := BitVec.ofNat 16 n.2 }.accept .descramble).inflight =
          some .descramble ∧
        LegalLengths
          ({ allAccepted with k1CurLen := BitVec.ofNat 16 n.1, k2CurLen := BitVec.ofNat 16 n.2 }.accept
            .descramble).k1CurLen.toNat
          ({ allAccepted with k1CurLen := BitVec.ofNat 16 n.1, k2CurLen := BitVec.ofNat 16 n.2 }.accept
            .descramble).k2CurLen.toNat := by
  simp only [LegalLengths]; decide

theorem witness_FileSetupIsTheFourCommands :
    Idle allAccepted ∧ allAccepted.err = 0#4 ∧ IssueConditions .fileSetup allAccepted := by
  simp only [Idle, IssueConditions, LegalLengths]; decide

theorem witness_BlockCommandsApplyTheRoundFunctions :
    (allAccepted.accept .blockEnc).inflight = some .blockEnc ∧ (allAccepted.accept .blockDec).inflight = some .blockDec := by
  decide

theorem witness_SfuncMixesTheFourTables : (allAccepted.accept .sfunc).inflight = some .sfunc := rfl

theorem witness_BlockDecUndoesBlockEnc : (allAccepted.accept .blockEnc).inflight = some .blockEnc := rfl

theorem witness_StreamBeginCountsThePairs : (allAccepted.accept .streamBegin).inflight = some .streamBegin := rfl

theorem witness_StreamPairDecryptsAndCounts : (allAccepted.accept .streamPair).inflight = some .streamPair := rfl

theorem witness_KeyCommandsAbortTheStream :
    ∀ i ∈ [Instr.keyCopy, .keyXor, .descramble, .fileSetup], (allAccepted.accept i).inflight = some i := fun _ _ => rfl

theorem witness_RegisterReadsReturnTheRegister : State.reset.busy = false := rfl

/-- The first and the last element of each array. -/
theorem witness_ArrayReadsReturnTheWord :
    State.reset.busy = false ∧
      decodeAddr Config.thisHardware (0x00100 + 4 * 0) = .name 0 ∧
      decodeAddr Config.thisHardware (0x00100 + 4 * 63) = .name 63 ∧
      decodeAddr Config.thisHardware (0x04000 + 4 * 0) = .ks1 0 ∧ decodeAddr Config.thisHardware (0x04000 + 4 * 1023) = .ks1 1023 ∧
      decodeAddr Config.thisHardware (0x08000 + 4 * 0) = .k1 0 ∧ decodeAddr Config.thisHardware (0x08000 + 4 * 1023) = .k1 1023 ∧
      decodeAddr Config.thisHardware (0x10000 + 4 * 0) = .ks2 0 ∧ decodeAddr Config.thisHardware (0x10000 + 4 * 4095) = .ks2 4095 ∧
      decodeAddr Config.thisHardware (0x20000 + 4 * 0) = .k2 0 ∧ decodeAddr Config.thisHardware (0x20000 + 4 * 4095) = .k2 4095 ∧
      decodeAddr Config.thisHardware (0x30000 + 4 * 0) = .mt 0 ∧ decodeAddr Config.thisHardware (0x30000 + 4 * 623) = .mt 623 := by decide

/-- The first and the last word of each reserved range; the write clause asks besides that BUSY = 0. -/
theorem witness_ReservedAddressesReadZeroAndIgnoreWrites :
    State.reset.busy = false ∧
      ∀ a ∈ [0x00050, 0x000FC, 0x00200, 0x03FFC, 0x05000, 0x07FFC, 0x09000, 0x0FFFC, 0x14000, 0x1FFFC, 0x24000, 0x2FFFC,
          0x309C0, 0x3FFFC],
        a % 4 = 0 ∧ decodeAddr Config.thisHardware a = .reserved ∧
          ((0x00050 ≤ a ∧ a < 0x00100) ∨ (0x00200 ≤ a ∧ a < 0x04000) ∨ (0x05000 ≤ a ∧ a < 0x08000) ∨
            (0x09000 ≤ a ∧ a < 0x10000) ∨ (0x14000 ≤ a ∧ a < 0x20000) ∨ (0x24000 ≤ a ∧ a < 0x30000) ∨
            (0x309C0 ≤ a ∧ a < 0x40000)) := by decide

theorem witness_ReadOnlyTargetsIgnoreWrites :
    State.reset.busy = false ∧
      ∀ a ∈ [0x004, 0x04C, 0x08000, 0x0BFFC, 0x20000, 0x30FFC],
        a % 4 = 0 ∧
          (a ∈ [0x004, 0x00C, 0x018, 0x028, 0x02C, 0x030, 0x034, 0x038, 0x03C, 0x040, 0x044, 0x048, 0x04C] ∨
            (0x08000 ≤ a ∧ a < 0x0C000) ∨ (0x20000 ≤ a ∧ a < 0x31000)) := by decide

theorem witness_RegisterWritesStoreTheirBits : allAccepted.busy = false := rfl

theorem witness_NameWindowPacksLittleEndian :
    State.reset.busy = false ∧ decodeAddr Config.thisHardware (0x00100 + 4 * 0) = .name 0 ∧ decodeAddr Config.thisHardware (0x00100 + 4 * 63) = .name 63 := by
  decide

theorem witness_KeySourceWritesStoreTheWord :
    State.reset.busy = false ∧ decodeAddr Config.thisHardware (0x04000 + 4 * 1023) = .ks1 1023 ∧ decodeAddr Config.thisHardware (0x10000 + 4 * 4095) = .ks2 4095 := by
  decide

/-- A read while idle and a read of RESULT while BUSY = 1; the last clause asks besides that BUSY = 0. -/
theorem witness_ReadsHaveNoSideEffect :
    State.reset.busy = false ∧
    (∃ t, step (State.reset.setAgenda [.host (.read 0x3FFFC 4)]) = .next t) ∧
      ∃ t, step ((State.reset.accept .nop).setAgenda [.host (.read 0x0000C 4)]) = .next t :=
  ⟨rfl, ⟨_, rfl⟩, ⟨_, rfl⟩⟩

theorem witness_BusyReadsOfResultsAreFree :
    (State.reset.accept .nop).busy = true ∧
      (∀ a ∈ [0x0000C, 0x00048, 0x08000, 0x08FFC, 0x20000, 0x23FFC, 0x30000, 0x309BC],
        a % 4 = 0 ∧ Target.commandWritten (decodeAddr Config.thisHardware a) = true) ∧
      ∀ a ∈ [0x00000, 0x00004, 0x0004C, 0x00100 + 4 * 0, 0x00100 + 4 * 63, 0x04000 + 4 * 0, 0x04000 + 4 * 1023,
          0x10000 + 4 * 0, 0x10000 + 4 * 4095],
        Target.commandWritten (decodeAddr Config.thisHardware a) = false := by decide

/-- One access for each of the three refusals, at the edge of its range. -/
theorem witness_AbsentAccessesAreRefused :
    (3 : Nat) ≠ 4 ∧ 2 ^ 18 ≤ 0x40000 ∧ 0x3FFFF < 2 ^ 18 ∧ 0x3FFFF % 4 ≠ 0 := by decide

theorem witness_AfterResetNothingIsValid :
    (∃ t, step (allAccepted.setAgenda [.reset]) = .next t) ∧
      ∀ i ∈ [Instr.keyXor, .descramble, .blockEnc, .blockDec, .sfunc, .streamBegin, .streamPair], i ≠ .prngNext :=
  ⟨⟨_, rfl⟩, by decide⟩

end Sys2Proof.Machine.Tests
end

/-! SUPPORT. What one step can do to the block, said once: the host's record and the events to come change, and then at
most one of five things happens to the block (or the reset event does). A property of the block that these keep holds
along every run. -/

namespace Sys2Proof.Machine

/-! ### The host's record -/

/-- `s` with other values in the model's own fields but `epoch`: what the host's reads, its output and the order of the
events to come change. -/
def State.withRecord (s : State) (es : List Event) (rs : List Word) (out : List Byte) (n : Nat) : State :=
  s.others s.inflight s.busy es rs out n

/-- No issue check looks at the host's record. -/
theorem issueCheck_withRecord (i : Instr) (s : State) (es : List Event) (rs : List Word) (out : List Byte) (n : Nat) :
    issueCheck Config.thisHardware i (s.withRecord es rs out n) = issueCheck Config.thisHardware i s :=
  issueCheck_others _ s _ _ es rs out n i

/-- A host read changes the host's record only (R75). -/
theorem hostRead_eq_withRecord (s : State) (a : Nat) :
    ∃ rs n, s.hostRead Config.thisHardware a = s.withRecord s.agenda rs s.output n := by
  rcases hostRead_cases Config.thisHardware s a with ⟨-, -, e⟩ | ⟨-, e⟩
  · exact ⟨_, _, e⟩
  · exact ⟨_, s.draws, e⟩

/-! ### What one step does to the block -/

/-- One thing that a step other than the reset event does to the block. -/
inductive BlockStep (s : State) : State → Prop where
  /-- Nothing. -/
  | stay : BlockStep s s
  /-- An error is recorded, if none was (R224). -/
  | error (c : ErrCode) : BlockStep s (s.raiseErr c)
  /-- A command whose checks hold is accepted (R223 step 5). -/
  | accept (i : Instr) (hb : s.busy = false) (hc : issueCheck Config.thisHardware i s = none) : BlockStep s (s.accept i)
  /-- A host write to a register or an array is taken (R56, R65, R66). -/
  | write (a : Nat) (v : Word) (hb : s.busy = false) :
      BlockStep s (s.writeTarget Config.thisHardware (decodeAddr Config.thisHardware a) v)
  /-- The command in flight completes (R225). -/
  | complete (i : Instr) (hi : s.inflight = some i) :
      BlockStep s (completionEffect Config.thisHardware i s).retire

/-- The issue of a command is one such thing. -/
theorem blockStep_issue (i : Instr) (s : State) : BlockStep s (issue i (issueCheck Config.thisHardware i) s) := by
  rcases issue_cases i (issueCheck Config.thisHardware i) s with
    ⟨-, e⟩ | ⟨-, -, -, e⟩ | ⟨-, -, c, -, e⟩ | ⟨hb, -, hc, e⟩ <;> rw [e]
  · exact .error .busy
  · exact .stay
  · exact .error c
  · exact .accept i hb hc

theorem blockStep_of_exec {i : Instr} {s t : State} (h : exec i s = .next t) : BlockStep s t := by
  rcases exec_cases h with ⟨hi, rfl⟩ | ⟨-, rfl⟩
  · exact .complete i hi
  · exact blockStep_issue i s

theorem blockStep_of_engineStep {s t : State} (h : engineStep exec s = .next t) : BlockStep s t := by
  rcases engineStep_cases s with ⟨i, hi, e⟩ | ⟨-, e⟩ <;> rw [e] at h <;> cases h
  · exact .complete i hi
  · exact .stay

theorem blockStep_of_hostWrite {a : Nat} {v : Word} {s t : State}
    (h : hostWrite Config.thisHardware exec a v s = .next t) : BlockStep s t := by
  rcases hostWrite_cases (run := exec) Config.thisHardware a v s with ⟨-, e⟩ | ⟨-, -, e⟩ | ⟨hb, -, e⟩ <;> rw [e] at h
  · cases h; exact .error .busy
  · rcases issueWord_cases (run := exec) v s with ⟨i, -, e⟩ | ⟨-, -, e⟩ | ⟨-, -, e⟩ <;> rw [e] at h
    · exact blockStep_of_exec h
    · cases h; exact .stay
    · cases h; exact .error .illegal
  · cases h; exact .write a v hb

/-- An event other than reset changes the host's record and then does one thing to the block. -/
theorem eventStep_blockStep {e : Event} {s t : State} (he : e ≠ .reset)
    (h : eventStep Config.thisHardware exec e s = .next t) :
    ∃ es rs out n, BlockStep (s.withRecord es rs out n) t := by
  cases e with
  | host x =>
    obtain ⟨-, ⟨a, _, -, rfl⟩ | ⟨a, _, v, -, hw⟩⟩ := hostStep_cases h
    · obtain ⟨rs, n, e⟩ := hostRead_eq_withRecord s a
      rw [e]
      exact ⟨_, rs, _, n, .stay⟩
    · exact ⟨_, _, _, _, blockStep_of_hostWrite hw⟩
  | check =>
    cases h
    rcases hostCheck_cases Config.thisHardware s with ⟨-, e⟩ | ⟨-, e⟩ <;> rw [e]
    · exact ⟨s.agenda, s.statusWord :: s.reads, s.output, s.draws, .stay⟩
    · exact ⟨_, s.statusWord :: s.reads, s.output, s.draws, .stay⟩
  | wait polls =>
    rcases hostWait_cases (run := exec) Config.thisHardware polls s with ⟨-, e⟩ | ⟨-, -, e⟩ | ⟨-, n, -, e⟩ <;>
      rw [eventStep, e] at h
    · cases h; exact ⟨s.agenda, s.statusWord :: s.reads, s.output, s.draws, .stay⟩
    · exact ⟨_, s.reads, s.output, s.draws, blockStep_of_engineStep h⟩
    · cases h; exact ⟨_, s.statusWord :: s.reads, s.output, s.draws, .stay⟩
  | collect =>
    cases h
    rcases hostCollect_cases Config.thisHardware s with ⟨-, e⟩ | ⟨-, e⟩ <;> rw [e]
    · exact ⟨s.agenda, s.statusWord :: s.reads, s.output, s.draws, .stay⟩
    · exact ⟨_, s.statusWord :: s.reads, s.output, s.draws, .stay⟩
  | append =>
    cases h
    rcases hostAppend_cases s with ⟨x, y, -, -, e⟩ | e <;> rw [e]
    · exact ⟨s.agenda, s.reads, _, s.draws, .stay⟩
    · exact ⟨s.agenda, s.reads, s.output, s.draws, .stay⟩
  | engine => exact ⟨_, _, _, _, blockStep_of_engineStep h⟩
  | reset => exact absurd rfl he

/-- Everything one step can do: the reset event, or a change of the host's record and then one thing to the block. -/
theorem step_blockStep {s t : State} (h : step s = .next t) :
    (∃ es, s.agenda = .reset :: es ∧ t = (s.setAgenda es).onReset) ∨
    ∃ es rs out n, BlockStep (s.withRecord es rs out n) t := by
  rcases step_cases h with ⟨-, h⟩ | ⟨e, es, ha, h⟩
  · exact .inr ⟨_, _, _, _, blockStep_of_engineStep h⟩
  · by_cases he : e = .reset
    · subst he; cases h; exact .inl ⟨es, ha, rfl⟩
    · obtain ⟨fs, rs, out, n, hs⟩ := eventStep_blockStep he h
      exact .inr ⟨fs, rs, out, n, hs⟩

end Sys2Proof.Machine

/-! SUPPORT. The machine invariant: what of it the effects keep, and the statements about every step and every run. -/

namespace Sys2Proof.Machine

/-! ### The arrays' list -/

/-- The arrays' list is in canonical form, and every byte it lists belongs to an element of an array. -/
def ArraysOk (m : Memory) : Prop := Memory.wf m ∧ ∀ c ∈ m, inArrays c.1 = true

/-- A store inside the arrays keeps the list as it should be. -/
theorem ArraysOk.store {m : Memory} (h : ArraysOk m) {a : Nat} {vs : List Byte}
    (hin : ∀ x, a ≤ x → x < a + vs.length → inArrays x = true) : ArraysOk (Memory.store m a vs) := by
  refine ⟨store_wf h.1 a vs, fun c hc => ?_⟩
  rcases mem_store hc with hc | ⟨hlo, hhi⟩
  · exact h.2 c hc
  · exact hin c.1 hlo hhi

theorem ArraysOk.storeWords {s : State} (h : ArraysOk s.mem) {base : Nat} {ws : List Word}
    (hin : ∀ x, base ≤ x → x < base + 4 * ws.length → inArrays x = true) : ArraysOk (s.storeWords base ws).mem :=
  h.store (by simpa using hin)

theorem ArraysOk.storeMT {s : State} (h : ArraysOk s.mem) (ws : List Word) : ArraysOk (s.storeMT ws).mem :=
  h.storeWords fun x hlo hhi => by
    have hl : (ws.take mtWords).length ≤ 624 := by simp [mtWords]
    simp only [mtBase] at hlo hhi
    rw [inArrays_iff]; omega

theorem ArraysOk.storeK1 {s : State} (h : ArraysOk s.mem) (ws : List Word) :
    ArraysOk (s.storeK1 Config.thisHardware ws).mem :=
  h.storeWords fun x hlo hhi => by
    have hl : (ws.take Config.thisHardware.k1Max).length ≤ 1024 := by simp [Config.thisHardware]
    simp only [k1Base] at hlo hhi
    rw [inArrays_iff]; omega

theorem ArraysOk.storeK2 {s : State} (h : ArraysOk s.mem) (ws : List Word) :
    ArraysOk (s.storeK2 Config.thisHardware ws).mem :=
  h.storeWords fun x hlo hhi => by
    have hl : (ws.take Config.thisHardware.k2Max).length ≤ 4096 := by simp [Config.thisHardware]
    simp only [k2Base] at hlo hhi
    rw [inArrays_iff]; omega

/-! ### The invariant without BUSY and INFLIGHT -/

/-- The part of the invariant that does not speak of BUSY and INFLIGHT: every effect keeps it, before `retire`. -/
structure BlockInv (s : State) : Prop where
  /-- STREAM_ACTIVE = 1 if and only if PAIRS_LEFT ≠ 0. -/
  active_iff_pairsLeft : s.streamActive = true ↔ s.pairsLeft ≠ 0#32
  /-- KEYS_READY = 1 implies KEYS_COPIED = 1. -/
  ready_copied : s.keysReady = true → s.keysCopied = true
  /-- STREAM_ACTIVE = 1 implies KEYS_READY = 1. -/
  active_ready : s.streamActive = true → s.keysReady = true
  /-- KEYS_COPIED = 1 implies that the latched lengths are legal. -/
  copied_lens : s.keysCopied = true →
    key1LenLegal Config.thisHardware s.k1CurLen.toNat = true ∧ key2LenLegal Config.thisHardware s.k2CurLen.toNat = true
  /-- MTI < 624. -/
  mti_lt : s.mti.toNat < 624
  /-- ERR ≤ 7. -/
  err_le : s.err.toNat ≤ 7
  /-- The stream counters stay within R42's bound. -/
  pairs_bound : s.pairIdx.toNat + s.pairsLeft.toNat ≤ 0x1FFFFFFF
  /-- The arrays' list is as it should be. -/
  arrays : ArraysOk s.mem

theorem Inv.blockInv {s : State} (h : Inv s) : BlockInv s :=
  { h with arrays := ⟨h.mem_wf, h.mem_inArrays⟩ }

/-- The whole invariant is that part, and what BUSY and INFLIGHT say. -/
theorem BlockInv.inv {s : State} (h : BlockInv s) (hbusy : s.busy = true ↔ s.inflight ≠ none)
    (hchecked : ∀ i, s.inflight = some i → issueCheck Config.thisHardware i s = none) : Inv s :=
  { h with
    busy_iff_inflight := hbusy, inflight_checked := hchecked, mem_wf := h.arrays.1, mem_inArrays := h.arrays.2 }

/-- The end of a completion step gives the whole invariant back. -/
theorem BlockInv.inv_retire {s : State} (h : BlockInv s) : Inv s.retire :=
  BlockInv.inv { h with } (by simp) (by simp)

/-! ### What the effects keep -/

theorem BlockInv.setMem {s : State} (h : BlockInv s) {m : Memory} (hm : ArraysOk m) : BlockInv (s.setMem m) :=
  { h with arrays := hm }

theorem BlockInv.storeMT {s : State} (h : BlockInv s) (ws : List Word) : BlockInv (s.storeMT ws) :=
  h.setMem (h.arrays.storeMT ws)

theorem BlockInv.storeK1 {s : State} (h : BlockInv s) (ws : List Word) :
    BlockInv (s.storeK1 Config.thisHardware ws) := h.setMem (h.arrays.storeK1 ws)

theorem BlockInv.storeK2 {s : State} (h : BlockInv s) (ws : List Word) :
    BlockInv (s.storeK2 Config.thisHardware ws) := h.setMem (h.arrays.storeK2 ws)

/-- `StreamAbort()` clears the counter and its flag together (R191). -/
theorem BlockInv.streamAbort {s : State} (h : BlockInv s) : BlockInv s.streamAbort :=
  { h with
    active_iff_pairsLeft := by simp
    active_ready := by simp
    pairs_bound := (Nat.le_add_right s.pairIdx.toNat s.pairsLeft.toNat).trans h.pairs_bound }

theorem BlockInv.mtSeed {s : State} (h : BlockInv s) (v : Word) : BlockInv (s.mtSeed v) :=
  { h.storeMT (mtInit v) with mti_lt := by simp }

theorem BlockInv.twistIfDue {s : State} (h : BlockInv s) : BlockInv s.twistIfDue := by
  unfold State.twistIfDue
  split
  · exact h.storeMT _
  · exact h

/-- The cursor of a draw is taken modulo 624. -/
theorem BlockInv.drawNext {s : State} (h : BlockInv s) : BlockInv s.drawNext :=
  { h.twistIfDue with
    mti_lt := by
      have hlt : (s.mti.toNat + 1) % mtWords < 624 := Nat.mod_lt _ (by decide)
      rw [drawNext_mti, BitVec.toNat_ofNat]
      omega }

theorem BlockInv.setFileKey {s : State} (h : BlockInv s) (w0 w1 w2 w3 : Word) :
    BlockInv { s with fkey0 := w0, fkey1 := w1, fkey2 := w2, fkey3 := w3 } := { h with }

theorem BlockInv.setValid {s : State} (h : BlockInv s) (seeded keyed : Bool) :
    BlockInv { s with prngValid := seeded, fkeyValid := keyed } := { h with }

theorem BlockInv.setResult {s : State} (h : BlockInv s) (w : Word) : BlockInv { s with result := w } := { h with }

theorem BlockInv.setPair {s : State} (h : BlockInv s) (w : Word × Word) : BlockInv (s.setPair w) := { h with }

theorem BlockInv.drawFileKey {s : State} (h : BlockInv s) : BlockInv s.drawFileKey :=
  h.drawNext.drawNext.drawNext.drawNext.setFileKey _ _ _ _

theorem BlockInv.fileKey {s : State} (h : BlockInv s) : BlockInv (fileKeyEffect Config.thisHardware s) := by
  unfold fileKeyEffect
  generalize seedFromBytes _ = v
  have hseed : BlockInv { s with seed := v } := { h with }
  exact (hseed.mtSeed v).drawFileKey.setValid true true

/-- KEY_COPY latches lengths that its checks found legal. -/
theorem BlockInv.keyCopy {s : State} (h : BlockInv s) (hc : keyLenCheck Config.thisHardware s = none) :
    BlockInv (keyCopyEffect Config.thisHardware s) := by
  have hlens : key1LenLegal Config.thisHardware s.key1Len.toNat = true ∧
      key2LenLegal Config.thisHardware s.key2Len.toNat = true := by simpa [keyLenCheck] using hc
  exact
    { ((h.storeK1 _).storeK2 _).streamAbort with
      ready_copied := by simp
      active_ready := by simp
      copied_lens := fun _ => by simpa using hlens }

theorem BlockInv.keyXor {s : State} (h : BlockInv s) : BlockInv (keyXorEffect Config.thisHardware s) :=
  { (h.storeK1 (xorFileKey s (s.loadWords k1Base s.k1CurLen.toNat))).streamAbort with
    ready_copied := by simp
    active_ready := by simp }

/-- DESCRAMBLE sets KEYS_READY; its check found KEYS_COPIED set. -/
theorem BlockInv.descramble {s : State} (h : BlockInv s) (hc : s.keysCopied = true) :
    BlockInv (descrambleEffect Config.thisHardware s) :=
  { (h.streamAbort.storeK1 _).storeK2 _ with
    ready_copied := fun _ => by simpa using hc
    active_ready := by simp }

theorem BlockInv.fileSetup {s : State} (h : BlockInv s) (hc : keyLenCheck Config.thisHardware s = none) :
    BlockInv (fileSetupEffect Config.thisHardware s) :=
  (h.keyCopy hc).fileKey.keyXor.descramble (by simp)

/-- STREAM_BEGIN opens a stream of at most 2^32 / 8 pairs, on descrambled keys. -/
theorem BlockInv.streamBegin {s : State} (h : BlockInv s) (hc : s.keysReady = true) :
    BlockInv (streamBeginEffect s) :=
  { h with
    active_iff_pairsLeft := by simp [streamBeginEffect, activeFlag]
    active_ready := fun _ => hc
    pairs_bound := by
      have hlt := s.arg0.isLt
      have hdiv : (s.arg0 / 8).toNat = s.arg0.toNat / 8 := BitVec.toNat_udiv
      show (0#32).toNat + (s.arg0 / 8).toNat ≤ 0x1FFFFFFF
      rw [hdiv, BitVec.toNat_ofNat]
      omega }

/-- STREAM_PAIR counts a pair from PAIRS_LEFT to PAIR_IDX; its check found PAIRS_LEFT not 0. -/
theorem BlockInv.streamPair {s : State} (h : BlockInv s) (hc : s.streamActive = true) :
    BlockInv (streamPairEffect s) :=
  { h with
    active_iff_pairsLeft := by simp [streamPairEffect, activeFlag]
    active_ready := fun _ => h.active_ready hc
    pairs_bound := by
      have hne := h.active_iff_pairsLeft.1 hc
      have hle := h.pairs_bound
      simp only [streamPairEffect]
      bv_omega }

/-- Every command that has passed its checks keeps the block's part of the invariant at its completion. -/
theorem BlockInv.complete {i : Instr} {s : State} (h : BlockInv s)
    (hc : issueCheck Config.thisHardware i s = none) : BlockInv (completionEffect Config.thisHardware i s) := by
  cases i with
  | nop => exact h
  | errClear => exact { h with err_le := by simp [completionEffect, errClearEffect] }
  | prngSeed => exact { h.mtSeed s.arg0 with }
  | prngNext => exact h.drawNext.setResult _
  | nameSeed => exact { h with }
  | nameSeedRaw => exact { h with }
  | fileKey => exact h.fileKey
  | keyCopy => exact h.keyCopy hc
  | keyXor => exact h.keyXor
  | descramble => exact h.descramble (require_eq_none.1 hc)
  | fileSetup => exact h.fileSetup (Option.or_eq_none_iff.1 hc).1
  | blockEnc => exact h.setPair _
  | blockDec => exact h.setPair _
  | sfunc => exact h.setResult _
  | streamBegin => exact h.streamBegin (require_eq_none.1 (Option.or_eq_none_iff.1 hc).1)
  | streamPair => exact h.streamPair (require_eq_none.1 hc)

/-! ### What the other block steps keep -/

/-- No error code is above 7 (R222). -/
theorem code_le (c : ErrCode) : c.code.toNat ≤ 7 := by cases c <;> decide

theorem BlockInv.raiseErr {s : State} (h : BlockInv s) (c : ErrCode) : BlockInv (s.raiseErr c) :=
  { h with
    err_le := by
      rw [raiseErr_err]
      split
      · exact code_le c
      · exact h.err_le }

/-- No issue check looks at ERR. -/
theorem issueCheck_raiseErr (i : Instr) (s : State) (c : ErrCode) :
    issueCheck Config.thisHardware i (s.raiseErr c) = issueCheck Config.thisHardware i s := by cases i <;> rfl

/-- A host write to a register reaches none of the registers of R53. -/
theorem BlockInv.writeReg {s : State} (h : BlockInv s) (r : Reg) (v : Word) : BlockInv (s.writeReg r v) := by
  cases r <;> exact { h with }

theorem BlockInv.writeTarget {s : State} (h : BlockInv s) (a : Nat) (v : Word) :
    BlockInv (s.writeTarget Config.thisHardware (decodeAddr Config.thisHardware a) v) := by
  have hb := decodeAddr_bounds a
  cases hd : decodeAddr Config.thisHardware a with
  | reg r => exact h.writeReg r v
  | name q =>
    rw [hd] at hb
    refine h.setMem (h.arrays.store fun x hlo hhi => ?_)
    have hl : ((bytesOfWord v).take (Config.thisHardware.nameMax - 4 * q)).length ≤ 4 := by simp
    simp only [nameBase] at hlo hhi
    rw [inArrays_iff]; omega
  | ks1 i =>
    rw [hd] at hb
    refine h.setMem (h.arrays.storeWords fun x hlo hhi => ?_)
    simp only [elementAddr, ks1Base, List.length_singleton] at hlo hhi
    rw [inArrays_iff]; omega
  | ks2 i =>
    rw [hd] at hb
    refine h.setMem (h.arrays.storeWords fun x hlo hhi => ?_)
    simp only [elementAddr, ks2Base, List.length_singleton] at hlo hhi
    rw [inArrays_iff]; omega
  | k1 i => exact h
  | k2 i => exact h
  | mt i => exact h
  | reserved => exact h

@[simp] theorem writeReg_busy (s : State) (r : Reg) (v : Word) : (s.writeReg r v).busy = s.busy := by cases r <;> rfl

@[simp] theorem writeReg_inflight (s : State) (r : Reg) (v : Word) : (s.writeReg r v).inflight = s.inflight := by
  cases r <;> rfl

@[simp] theorem writeTarget_busy (s : State) (p : Config.Params) (t : Target) (v : Word) :
    (s.writeTarget p t v).busy = s.busy := by cases t <;> simp [State.writeTarget]

@[simp] theorem writeTarget_inflight (s : State) (p : Config.Params) (t : Target) (v : Word) :
    (s.writeTarget p t v).inflight = s.inflight := by cases t <;> simp [State.writeTarget]

/-! ### Steps and runs -/

/-- The host's record is no part of the invariant. -/
theorem Inv.withRecord {s : State} (h : Inv s) (es : List Event) (rs : List Word) (out : List Byte) (n : Nat) :
    Inv (s.withRecord es rs out n) :=
  { h with inflight_checked := fun i hi => by rw [issueCheck_withRecord]; exact h.inflight_checked i hi }

/-- With BUSY = 0 nothing is in flight. -/
theorem Inv.inflight_none {s : State} (h : Inv s) (hb : s.busy = false) : s.inflight = none := by
  by_contra hi
  rw [h.busy_iff_inflight.2 hi] at hb
  cases hb

theorem BlockStep.inv {s t : State} (h : BlockStep s t) (hs : Inv s) : Inv t := by
  cases h with
  | stay => exact hs
  | error c =>
    exact (hs.blockInv.raiseErr c).inv hs.busy_iff_inflight fun i hi => by
      rw [issueCheck_raiseErr]; exact hs.inflight_checked i hi
  | accept i hb hc =>
    refine BlockInv.inv { hs.blockInv with } (by simp) fun j hj => ?_
    obtain rfl : i = j := Option.some.inj hj
    exact (issueCheck_others _ s (some i) true s.agenda s.reads s.output s.draws i).trans hc
  | write a v hb =>
    have hi := hs.inflight_none hb
    exact (hs.blockInv.writeTarget a v).inv (by simp [hb, hi]) (by simp [hi])
  | complete i hi => exact (hs.blockInv.complete (hs.inflight_checked i hi)).inv_retire

theorem inv_reset : Inv State.reset where
  busy_iff_inflight := by decide
  active_iff_pairsLeft := by decide
  ready_copied := by decide
  active_ready := by decide
  copied_lens := by decide
  mti_lt := by decide
  err_le := by decide
  inflight_checked := fun _ hi => by cases hi
  pairs_bound := by decide
  mem_wf := reset_mem_wf
  mem_inArrays := fun _ hc => by cases hc

/-- Settles O14: the events to come are no part of the invariant. -/
theorem resetStateHasTheInvariant : Obligations.ResetStateHasTheInvariant := fun es => inv_reset.withRecord es [] [] 0

/-- The reset event restores the invariant: the count of resets is no part of it. -/
theorem inv_onReset (s : State) : Inv s.onReset :=
  { inv_reset with inflight_checked := fun _ hi => by cases hi }

/-- Settles O13: the reset event restores the invariant, a change of the host's record does not touch it, and each
of the five things that a step does to the block keeps it. -/
theorem everyStepKeepsTheInvariant : Obligations.EveryStepKeepsTheInvariant := by
  intro s t hs h
  rcases step_blockStep h with ⟨es, -, rfl⟩ | ⟨es, rs, out, n, hstep⟩
  · exact inv_onReset _
  · exact hstep.inv (hs.withRecord es rs out n)

/-- Every state that a run from reset reaches has the invariant. -/
theorem Reachable.inv {s : State} (h : Reachable s) : Inv s := by
  induction h with
  | start es => exact resetStateHasTheInvariant es
  | step _ hs ih => exact everyStepKeepsTheInvariant _ _ ih hs

end Sys2Proof.Machine

/-! SUPPORT. STATUS as a word, the invariants of R53 along every run, the valid flags, and what no command writes. -/

namespace Sys2Proof.Machine

/-! ### The STATUS word -/

/-- The lowest bit of a word that ends in a flag is the flag. -/
theorem getLsbD_append_flag_zero {n : Nat} (x : BitVec n) (f : Bool) : (x ++ flagBit f).getLsbD 0 = f := by
  rw [BitVec.getLsbD_append, if_pos Nat.one_pos]
  exact (BitVec.getLsbD_ofBool f 0).trans (by simp)

/-- The bits above a last flag are those of the rest. -/
theorem getLsbD_append_flag_succ {n : Nat} (x : BitVec n) (f : Bool) (i : Nat) :
    (x ++ flagBit f).getLsbD (i + 1) = x.getLsbD i := by
  simp [flagBit, BitVec.getLsbD_append]

/-- What stands in STATUS above its seven flags: a zero, ERR, and zeros (R24, R55). -/
theorem statusWord_getLsbD_add_seven (s : State) (i : Nat) :
    s.statusWord.getLsbD (i + 7) = (0#20 ++ s.err ++ 0#1).getLsbD i := by
  unfold State.statusWord
  simp only [getLsbD_append_flag_succ]

/-- Above the eight low bits of STATUS stand ERR and zeros. -/
theorem statusWord_getLsbD_add_eight (s : State) (i : Nat) : s.statusWord.getLsbD (8 + i) = s.err.getLsbD i := by
  rw [show 8 + i = i + 1 + 7 by omega, statusWord_getLsbD_add_seven]
  have hzero : 0#1 = flagBit false := rfl
  rw [hzero, getLsbD_append_flag_succ, BitVec.getLsbD_append]
  by_cases hi : i < 4
  · simp [hi]
  · simp [hi, BitVec.getLsbD_of_ge s.err i (by omega)]

/-- Settles O48: each bit falls into one of the pieces that STATUS is joined of. -/
theorem statusWordHasItsFields : Obligations.StatusWordHasItsFields := by
  intro s
  have herr : s.statusWord.extractLsb' 8 4 = s.err := by
    ext k hk
    rw [BitVec.getElem_extractLsb', statusWord_getLsbD_add_eight, BitVec.getLsbD_eq_getElem hk]
  have hrsv : s.statusWord.extractLsb' 12 20 = 0 := by
    ext k hk
    rw [BitVec.getElem_extractLsb', show 12 + k = 8 + (4 + k) by omega, statusWord_getLsbD_add_eight,
      BitVec.getLsbD_of_ge _ _ (by omega)]
    simp
  have hbit7 : s.statusWord.getLsbD 7 = false :=
    (statusWord_getLsbD_add_seven s 0).trans (getLsbD_append_flag_zero _ false)
  refine ⟨?_, ?_, ?_, ?_, ?_, ?_, ?_, hbit7, herr, hrsv⟩ <;> unfold State.statusWord <;>
    simp only [getLsbD_append_flag_zero, getLsbD_append_flag_succ]

/-! ### Runs -/

/-- Settles O15: every reachable state has the invariant, and the reserved bits of STATUS are 0 in every state. -/
theorem reachableStatesKeepTheFlagsConsistent : Obligations.ReachableStatesKeepTheFlagsConsistent := by
  intro s h
  have hs := h.inv
  obtain ⟨-, -, -, -, -, -, -, hbit7, -, hhigh⟩ := statusWordHasItsFields s
  have hlens : s.keysCopied = true → LegalLengths s.k1CurLen.toNat s.k2CurLen.toNat := fun hc =>
    ⟨(key1LenLegal_iff _).1 (hs.copied_lens hc).1, (key2LenLegal_iff _).1 (hs.copied_lens hc).2⟩
  exact ⟨hs.busy_iff_inflight, hs.active_iff_pairsLeft, hs.ready_copied, hs.active_ready, hlens, hs.mti_lt, hs.err_le,
    hbit7, hhigh⟩

/-! ### The valid flags -/

/-- The flags that say that the generator is seeded, the file key derived and the keys copied stay set. -/
def ValidFlagsKept (s t : State) : Prop :=
  (s.prngValid = true → t.prngValid = true) ∧ (s.fkeyValid = true → t.fkeyValid = true) ∧
    (s.keysCopied = true → t.keysCopied = true)

/-- No effect clears one of these flags; PRNG_SEED, FILE_KEY, KEY_COPY and FILE_SETUP set them. -/
theorem validFlagsKept_completionEffect (i : Instr) (s : State) :
    ValidFlagsKept s (completionEffect Config.thisHardware i s) := by
  cases i with
  | prngSeed => exact ⟨fun _ => rfl, id, id⟩
  | prngNext => simp [ValidFlagsKept, completionEffect, prngNextEffect]
  | fileKey => simp [ValidFlagsKept, completionEffect]
  | keyCopy => exact ⟨id, id, fun _ => rfl⟩
  | fileSetup => simp [ValidFlagsKept, completionEffect, fileSetupEffect]
  | sfunc => simp [ValidFlagsKept, completionEffect, sfuncEffect]
  | _ => exact ⟨id, id, id⟩

theorem validFlagsKept_writeTarget (s : State) (p : Config.Params) (t : Target) (v : Word) :
    ValidFlagsKept s (s.writeTarget p t v) := by
  cases t with
  | reg r => cases r <;> exact ⟨id, id, id⟩
  | _ => exact ⟨id, id, id⟩

theorem BlockStep.validFlagsKept {s t : State} (h : BlockStep s t) : ValidFlagsKept s t := by
  cases h with
  | write a v hb => exact validFlagsKept_writeTarget s _ _ v
  | complete i hi => exact validFlagsKept_completionEffect i s
  | _ => exact ⟨id, id, id⟩

/-- Settles O16: of what a step can do only the reset event clears one of these flags. -/
theorem validFlagsAreClearedOnlyByReset : Obligations.ValidFlagsAreClearedOnlyByReset := by
  intro s t hne h
  rcases step_blockStep h with ⟨es, ha, -⟩ | ⟨es, rs, out, n, hstep⟩
  · exact absurd ha (hne es)
  · exact hstep.validFlagsKept

/-! ### What no command writes -/

/-- Every byte of the NAME, KS1 and KS2 windows reads the same in both states. -/
def SameSources (s t : State) : Prop :=
  ∀ x, (0x00100 ≤ x ∧ x < 0x00200) ∨ (0x04000 ≤ x ∧ x < 0x08000) ∨ (0x10000 ≤ x ∧ x < 0x20000) → t.byte x = s.byte x

theorem SameSources.refl (s : State) : SameSources s s := fun _ _ => rfl

theorem SameSources.trans {s t u : State} (h : SameSources s t) (h' : SameSources t u) : SameSources s u :=
  fun x hx => (h' x hx).trans (h x hx)

/-- A change of registers leaves every byte. -/
theorem SameSources.of_mem {s t u : State} (h : SameSources s t) (hm : u.mem = t.mem) (he : u.epoch = t.epoch) :
    SameSources s u := fun x hx => (byte_congr hm he x).trans (h x hx)

theorem sameSources_storeMT (s : State) (ws : List Word) : SameSources s (s.storeMT ws) :=
  fun x hx => byte_storeMT_outside s ws x (by omega)

theorem sameSources_storeK1 (s : State) (ws : List Word) : SameSources s (s.storeK1 Config.thisHardware ws) :=
  fun x hx => byte_storeK1_outside s ws x (by omega)

theorem sameSources_storeK2 (s : State) (ws : List Word) : SameSources s (s.storeK2 Config.thisHardware ws) :=
  fun x hx => byte_storeK2_outside s ws x (by omega)

theorem sameSources_mtSeed (s : State) (v : Word) : SameSources s (s.mtSeed v) :=
  (sameSources_storeMT s _).of_mem rfl rfl

theorem sameSources_drawNext (s : State) : SameSources s s.drawNext := by
  have h : SameSources s s.twistIfDue := by
    unfold State.twistIfDue
    split
    · exact sameSources_storeMT s _
    · exact .refl s
  exact h.of_mem rfl rfl

theorem sameSources_drawFileKey (s : State) : SameSources s s.drawFileKey :=
  ((((sameSources_drawNext s).trans (sameSources_drawNext _)).trans (sameSources_drawNext _)).trans
    (sameSources_drawNext _)).of_mem rfl rfl

theorem sameSources_fileKeyEffect (p : Config.Params) (s : State) : SameSources s (fileKeyEffect p s) := by
  unfold fileKeyEffect
  generalize seedFromBytes _ = v
  have hseed : SameSources s { s with seed := v } := (SameSources.refl s).of_mem rfl rfl
  exact ((hseed.trans (sameSources_mtSeed _ v)).trans (sameSources_drawFileKey _)).of_mem rfl rfl

theorem sameSources_keyCopyEffect (s : State) : SameSources s (keyCopyEffect Config.thisHardware s) :=
  ((sameSources_storeK1 s _).trans (sameSources_storeK2 _ _)).of_mem rfl rfl

theorem sameSources_keyXorEffect (s : State) : SameSources s (keyXorEffect Config.thisHardware s) :=
  (sameSources_storeK1 s _).of_mem rfl rfl

theorem sameSources_descrambleEffect (s : State) : SameSources s (descrambleEffect Config.thisHardware s) := by
  have habort : SameSources s s.streamAbort := (SameSources.refl s).of_mem rfl rfl
  exact ((habort.trans (sameSources_storeK1 _ _)).trans (sameSources_storeK2 _ _)).of_mem rfl rfl

theorem sameSources_fileSetupEffect (s : State) : SameSources s (fileSetupEffect Config.thisHardware s) :=
  (((sameSources_keyCopyEffect s).trans (sameSources_fileKeyEffect _ _)).trans (sameSources_keyXorEffect _)).trans
    (sameSources_descrambleEffect _)

theorem sameSources_sfuncEffect (s : State) : SameSources s (sfuncEffect s) := by
  unfold sfuncEffect
  generalize sBox _ _ = w
  exact (SameSources.refl s).of_mem rfl rfl

/-- Every command's effect writes at most MT, K1 and K2. -/
theorem sameSources_completionEffect (i : Instr) (s : State) :
    SameSources s (completionEffect Config.thisHardware i s) := by
  cases i with
  | prngSeed => exact (sameSources_mtSeed s s.arg0).of_mem rfl rfl
  | prngNext => exact (sameSources_drawNext s).of_mem rfl rfl
  | fileKey => exact sameSources_fileKeyEffect _ s
  | keyCopy => exact sameSources_keyCopyEffect s
  | keyXor => exact sameSources_keyXorEffect s
  | descramble => exact sameSources_descrambleEffect s
  | fileSetup => exact sameSources_fileSetupEffect s
  | sfunc => exact sameSources_sfuncEffect s
  | _ => exact (SameSources.refl s).of_mem rfl rfl

/-- The issue of a command writes no array. -/
theorem sameSources_issue (i : Instr) (check : State → Option ErrCode) (s : State) :
    SameSources s (issue i check s) := by
  rcases issue_cases i check s with ⟨-, e⟩ | ⟨-, -, -, e⟩ | ⟨-, -, c, -, e⟩ | ⟨-, -, -, e⟩ <;> rw [e] <;>
    exact (SameSources.refl s).of_mem rfl rfl

/-- Settles O21: neither the issue of a command nor its effect writes a byte of these windows. -/
theorem commandsNeverWriteKeySourcesOrName : Obligations.CommandsNeverWriteKeySourcesOrName := by
  intro i s t h
  rcases exec_cases h with ⟨-, rfl⟩ | ⟨-, rfl⟩
  · exact (sameSources_completionEffect i s).of_mem rfl rfl
  · exact sameSources_issue i _ s

end Sys2Proof.Machine

/-! SUPPORT. Host accesses to registers and read-only windows. -/

namespace Sys2Proof.Machine

theorem offset_mod_four (r : Reg) : Reg.offset r % 4 = 0 := by cases r <;> rfl

theorem offset_lt (r : Reg) : Reg.offset r < 2 ^ 18 := by cases r <;> decide

/-- The address of a word of the name window reaches that word (R63, R65). -/
theorem decodeAddr_name_word {q : Nat} (h : q < 64) :
    decodeAddr Config.thisHardware (0x00100 + 4 * q) = .name q := by
  rw [decodeAddr_name (by omega), show (0x00100 + 4 * q - 0x00100) / 4 = q by omega]

/-- The address of an element of KS1 reaches that element (R63). -/
theorem decodeAddr_ks1_element {i : Nat} (h : i < 1024) :
    decodeAddr Config.thisHardware (0x04000 + 4 * i) = .ks1 i := by
  rw [decodeAddr_ks1 (by omega), show (0x04000 + 4 * i - 0x04000) / 4 = i by omega]

/-- The address of an element of KS2 reaches that element (R63). -/
theorem decodeAddr_ks2_element {i : Nat} (h : i < 4096) :
    decodeAddr Config.thisHardware (0x10000 + 4 * i) = .ks2 i := by
  rw [decodeAddr_ks2 (by omega), show (0x10000 + 4 * i - 0x10000) / 4 = i by omega]

/-! ### Host reads -/

/-- A host read of a register whose value is specified (R73). -/
theorem step_read_reg (s : State) (es : List Event) (r : Reg) (h : s.busy = false ∨ Reg.commandWritten r = false) :
    step (s.setAgenda (.host (.read (Reg.offset r) 4) :: es)) =
      .next { s with agenda := es, reads := s.regValue r :: s.reads } := by
  rw [step_read_value s es (offset_mod_four r) (offset_lt r) (by rw [decodeAddr_offset]; exact h), decodeAddr_offset]
  rfl

/-- The registers, K1, K2 and MT that R73 lists are the targets that a command writes. -/
theorem commandWritten_decodeAddr {a : Nat}
    (h : a ∈ [0x00C, 0x010, 0x014, 0x018, 0x028, 0x02C, 0x030, 0x034, 0x038, 0x03C, 0x040, 0x044, 0x048] ∨
      (0x08000 ≤ a ∧ a < 0x09000) ∨ (0x20000 ≤ a ∧ a < 0x24000) ∨ (0x30000 ≤ a ∧ a < 0x309C0)) :
    a < 2 ^ 18 ∧ Target.commandWritten (decodeAddr Config.thisHardware a) = true := by
  rcases h with h | h | h | h
  · have hall : ∀ a ∈ [0x00C, 0x010, 0x014, 0x018, 0x028, 0x02C, 0x030, 0x034, 0x038, 0x03C, 0x040, 0x044, 0x048],
        a < 2 ^ 18 ∧ Target.commandWritten (decodeAddr Config.thisHardware a) = true := by decide
    exact hall a h
  · exact ⟨by omega, by rw [decodeAddr_k1 h]; rfl⟩
  · exact ⟨by omega, by rw [decodeAddr_k2 h]; rfl⟩
  · exact ⟨by omega, by rw [decodeAddr_mt h]; rfl⟩

/-- Settles O57: a read of a target that a command writes answers a free word, a read of any other its value; R73's
lists are these targets. -/
theorem busyReadsOfResultsAreFree : Obligations.BusyReadsOfResultsAreFree := by
  intro s es hb
  refine ⟨fun a ha h => ?_, ?_, fun q hq => ?_, fun i hi => ?_, fun i hi => ?_⟩
  · obtain ⟨hl, hc⟩ := commandWritten_decodeAddr h
    exact step_read_free s es ha hl hb hc
  · simp only [List.forall_mem_cons, List.not_mem_nil, false_imp_iff, implies_true, and_true]
    exact ⟨step_read_reg s es .cmd (.inr rfl), step_read_reg s es .status (.inr rfl),
      step_read_reg s es .arg0 (.inr rfl), step_read_reg s es .nameLen (.inr rfl),
      step_read_reg s es .key1Len (.inr rfl), step_read_reg s es .key2Len (.inr rfl),
      step_read_reg s es .id (.inr rfl)⟩
  · have hd := decodeAddr_name_word hq
    rw [step_read_value s es (by omega) (by omega) (.inr (by rw [hd]; rfl)), hd, ← nameWindowWord_eq s hq]
    rfl
  · have hd := decodeAddr_ks1_element hi
    rw [step_read_value s es (by omega) (by omega) (.inr (by rw [hd]; rfl)), hd]
    rfl
  · have hd := decodeAddr_ks2_element hi
    rw [step_read_value s es (by omega) (by omega) (.inr (by rw [hd]; rfl)), hd]
    rfl

/-! ### Host writes -/

/-- A host write while BUSY = 0 to any target but CMD stores there (R56, R65, R66). -/
theorem step_write_target (s : State) (es : List Event) {a : Nat} (v : Word) (ha : a % 4 = 0) (hl : a < 2 ^ 18)
    (hb : s.busy = false) (hc : decodeAddr Config.thisHardware a ≠ .reg .cmd) :
    step (s.setAgenda (.host (.write a 4 v) :: es)) =
      .next ((s.setAgenda es).writeTarget Config.thisHardware (decodeAddr Config.thisHardware a) v) := by
  rw [step_write s es v ha hl]
  rcases hostWrite_cases (run := exec) Config.thisHardware a v (s.setAgenda es) with ⟨h, -⟩ | ⟨-, h, -⟩ | ⟨-, -, e⟩
  · rw [setAgenda_busy, hb] at h; cases h
  · exact absurd h hc
  · exact e

/-- A host write while BUSY = 0 to a register other than CMD. -/
theorem step_write_reg (s : State) (es : List Event) (v : Word) (hb : s.busy = false) {r : Reg} (hr : r ≠ .cmd) :
    step (s.setAgenda (.host (.write (Reg.offset r) 4 v) :: es)) = .next ((s.setAgenda es).writeReg r v) := by
  have hd := decodeAddr_offset r
  rw [step_write_target s es v (offset_mod_four r) (offset_lt r) hb (by rw [hd]; simpa using hr), hd]
  rfl

/-- Settles O53: the six registers are written by their own offsets, and the narrow ones keep bits 15:0. -/
theorem registerWritesStoreTheirBits : Obligations.RegisterWritesStoreTheirBits := by
  intro s es v hb
  have hlow : v.setWidth 16 = v.extractLsb' 0 16 := BitVec.setWidth_eq_extractLsb' (by decide)
  rw [← hlow]
  exact ⟨step_write_reg s es v hb (r := .arg0) (by decide), step_write_reg s es v hb (r := .a) (by decide),
    step_write_reg s es v hb (r := .b) (by decide), step_write_reg s es v hb (r := .nameLen) (by decide),
    step_write_reg s es v hb (r := .key1Len) (by decide), step_write_reg s es v hb (r := .key2Len) (by decide)⟩

/-- The targets that ignore a host write while BUSY = 0 (R56, R68-R71). -/
def Target.readOnly : Target → Bool
  | .reg r => r ∉ [Reg.cmd, .arg0, .a, .b, .nameLen, .key1Len, .key2Len]
  | .k1 _ | .k2 _ | .mt _ | .reserved => true
  | .name _ | .ks1 _ | .ks2 _ => false

theorem writeTarget_readOnly (s : State) (p : Config.Params) {t : Target} (v : Word) (h : Target.readOnly t = true) :
    s.writeTarget p t v = s := by
  cases t with
  | reg r => cases r <;> simp [Target.readOnly] at h <;> rfl
  | name q => simp [Target.readOnly] at h
  | ks1 i => simp [Target.readOnly] at h
  | ks2 i => simp [Target.readOnly] at h
  | _ => rfl

/-- The read-only registers and the K1, K2 and MT windows in numbers (R22, R63). -/
theorem readOnly_decodeAddr {a : Nat}
    (h : a ∈ [0x004, 0x00C, 0x018, 0x028, 0x02C, 0x030, 0x034, 0x038, 0x03C, 0x040, 0x044, 0x048, 0x04C] ∨
      (0x08000 ≤ a ∧ a < 0x0C000) ∨ (0x20000 ≤ a ∧ a < 0x31000)) :
    a < 2 ^ 18 ∧ Target.readOnly (decodeAddr Config.thisHardware a) = true := by
  rcases h with h | ⟨hlo, hhi⟩ | ⟨hlo, hhi⟩
  · have hall : ∀ a ∈ [0x004, 0x00C, 0x018, 0x028, 0x02C, 0x030, 0x034, 0x038, 0x03C, 0x040, 0x044, 0x048, 0x04C],
        a < 2 ^ 18 ∧ Target.readOnly (decodeAddr Config.thisHardware a) = true := by decide
    exact hall a h
  · refine ⟨by omega, ?_⟩
    rcases Nat.lt_or_ge a 0x09000 with h | h
    · rw [decodeAddr_k1 ⟨hlo, h⟩]; rfl
    · rw [decodeAddr_beyond_k1 ⟨h, hhi⟩]; rfl
  · refine ⟨by omega, ?_⟩
    rcases Nat.lt_or_ge a 0x24000 with h | h
    · rw [decodeAddr_k2 ⟨hlo, h⟩]; rfl
    rcases Nat.lt_or_ge a 0x30000 with h' | h'
    · rw [decodeAddr_beyond_k2 ⟨h, h'⟩]; rfl
    rcases Nat.lt_or_ge a 0x309C0 with h'' | h''
    · rw [decodeAddr_mt ⟨h', h''⟩]; rfl
    · rw [decodeAddr_beyond_mt ⟨h'', hhi⟩]; rfl

/-- Settles O52: each of these addresses reaches a target that ignores the write, and none of them is CMD. -/
theorem readOnlyTargetsIgnoreWrites : Obligations.ReadOnlyTargetsIgnoreWrites := by
  intro s es a v ha hb h
  obtain ⟨hl, hro⟩ := readOnly_decodeAddr h
  have hne : decodeAddr Config.thisHardware a ≠ .reg .cmd := fun e => by rw [e] at hro; simp [Target.readOnly] at hro
  rw [step_write_target s es v ha hl hb hne, writeTarget_readOnly _ _ v hro]

end Sys2Proof.Machine

/-! SUPPORT. Host accesses of spec/20_memory.md: what a read answers, what a write stores, and which accesses stop. -/

namespace Sys2Proof.Machine

/-! ### Accesses that the interface does not have -/

/-- Only 32-bit accesses exist (R62). -/
theorem accessProblem_of_width {a n : Nat} (hw : n ≠ 4) : accessProblem a n = some .width := if_pos hw

/-- An address has 18 bits (R60). -/
theorem accessProblem_of_range {a : Nat} (hr : 2 ^ 18 ≤ a) : accessProblem a 4 = some .range := by
  unfold accessProblem
  rw [if_neg (by simp), if_pos (show 2 ^ Config.addrWidth ≤ a from hr)]

/-- A word address is a multiple of 4 (R61). -/
theorem accessProblem_of_misaligned {a : Nat} (hl : a < 2 ^ 18) (hm : a % 4 ≠ 0) :
    accessProblem a 4 = some .misaligned := by
  unfold accessProblem
  rw [if_neg (by simp), if_neg (show ¬ 2 ^ Config.addrWidth ≤ a from Nat.not_le.2 hl), if_pos hm]

/-- An access with a problem, as the next event. -/
theorem step_absent (s : State) (es : List Event) {x : HostAccess} {e : AccessProblem} (h : x.problem = some e) :
    step (s.setAgenda (.host x :: es)) = .refused (AccessProblem.refusal e) := by
  show hostStep Config.thisHardware exec x (s.setAgenda es) = _
  unfold hostStep
  simp only [h]

/-- Settles O58: the problem of an access is its width, else its range, else its alignment, for a read and a write
alike. -/
theorem absentAccessesAreRefused : Obligations.AbsentAccessesAreRefused := by
  intro s es x addr bytes v hx
  have hp : x.problem = accessProblem addr bytes := by rcases hx with rfl | rfl <;> rfl
  refine ⟨fun hw => ?_, fun h4 hr => ?_, fun h4 hl hm => ?_⟩
  · exact step_absent s es (hp.trans (accessProblem_of_width hw))
  · subst h4
    exact step_absent s es (hp.trans (accessProblem_of_range hr))
  · subst h4
    exact step_absent s es (hp.trans (accessProblem_of_misaligned hl hm))

/-! ### What can stop a step -/

theorem engineStep_next (s : State) : ∃ t, engineStep exec s = .next t := by
  rcases engineStep_cases s with ⟨i, -, e⟩ | ⟨-, e⟩ <;> exact ⟨_, e⟩

/-- No write to CMD stops, whatever the word. -/
theorem issueWord_next (w : Word) (s : State) : ∃ t, issueWord exec w s = .next t := by
  rcases issueWord_cases (run := exec) w s with ⟨i, -, e⟩ | ⟨-, -, e⟩ | ⟨-, -, e⟩
  · rw [e]; exact exec_next i s
  · exact ⟨_, e⟩
  · exact ⟨_, e⟩

theorem hostWrite_next (a : Nat) (v : Word) (s : State) : ∃ t, hostWrite Config.thisHardware exec a v s = .next t := by
  rcases hostWrite_cases (run := exec) Config.thisHardware a v s with ⟨-, e⟩ | ⟨-, -, e⟩ | ⟨-, -, e⟩
  · exact ⟨_, e⟩
  · rw [e]; exact issueWord_next v s
  · exact ⟨_, e⟩

/-- A host access that the interface has does not stop. -/
theorem hostStep_next {x : HostAccess} (s : State) (h : x.problem = none) :
    ∃ t, hostStep Config.thisHardware exec x s = .next t := by
  unfold hostStep
  simp only [h]
  cases x with
  | read a bytes => exact ⟨_, rfl⟩
  | write a bytes v => exact hostWrite_next a v s

theorem hostWait_next (polls : Nat) (s : State) : ∃ t, hostWait Config.thisHardware exec polls s = .next t := by
  rcases hostWait_cases (run := exec) Config.thisHardware polls s with ⟨-, e⟩ | ⟨-, -, e⟩ | ⟨-, n, -, e⟩
  · exact ⟨_, e⟩
  · rw [e]; exact engineStep_next _
  · exact ⟨_, e⟩

/-- An event stops only if it is a host access that the interface does not have. -/
theorem eventStep_next_or_absent (e : Event) (s : State) :
    (∃ t, eventStep Config.thisHardware exec e s = .next t) ∨ ∃ x, e = .host x ∧ x.wellFormed = false := by
  cases e with
  | host x =>
    cases hp : x.problem with
    | none => exact .inl (hostStep_next s hp)
    | some problem => exact .inr ⟨x, rfl, by simp [HostAccess.wellFormed, hp]⟩
  | wait polls => exact .inl (hostWait_next polls s)
  | engine => exact .inl (engineStep_next s)
  | _ => exact .inl ⟨_, rfl⟩

/-- Settles O17: with no event to come the engine's turn answers a next state; else the next event does, or is an
absent access. -/
theorem stepStopsOnlyOnAnAbsentAccess : Obligations.StepStopsOnlyOnAnAbsentAccess := by
  intro s
  unfold step nextEvent
  cases s.agenda with
  | nil => exact .inl (engineStep_next s)
  | cons e es =>
    rcases eventStep_next_or_absent e (s.setAgenda es) with h | ⟨x, rfl, hx⟩
    · exact .inl h
    · exact .inr ⟨x, es, rfl, hx⟩

/-! ### Commands and the host's record -/

/-- The issue of a command neither reads nor writes the host's record. -/
theorem issue_withRecord (i : Instr) (s : State) (es : List Event) (rs : List Word) (out : List Byte) (n : Nat) :
    issue i (issueCheck Config.thisHardware i) (s.withRecord es rs out n) =
      (issue i (issueCheck Config.thisHardware i) s).withRecord es rs out n := by
  have hbusy : (s.withRecord es rs out n).busy = s.busy := rfl
  have herr : (s.withRecord es rs out n).err = s.err := rfl
  unfold issue
  rw [issueCheck_withRecord, hbusy, herr]
  split
  · rfl
  · split
    · rfl
    · split <;> rfl

/-- Settles O19: neither the effect of a command nor its issue touches these fields. -/
theorem commandsDoNotSeeTheHostsRecord : Obligations.CommandsDoNotSeeTheHostsRecord := by
  intro i s t es rs out n h
  show exec i (s.withRecord es rs out n) = .next (t.withRecord es rs out n)
  rcases exec_cases h with ⟨hi, rfl⟩ | ⟨hi, rfl⟩
  · have heff := completionEffect_others Config.thisHardware s s.inflight s.busy es rs out n i
    rw [exec_completes (show (s.withRecord es rs out n).inflight = some i from hi), State.withRecord, heff]
    rfl
  · rw [exec_issues (show (s.withRecord es rs out n).inflight ≠ some i from hi), issue_withRecord]

/-! ### Host reads -/

/-- A host read while BUSY = 0, by what its address reaches (R64-R71). -/
theorem step_read_target (s : State) (es : List Event) {a : Nat} {t : Target} (hb : s.busy = false) (ha : a % 4 = 0)
    (hl : a < 2 ^ 18) (hd : decodeAddr Config.thisHardware a = t) :
    step (s.setAgenda (.host (.read a 4) :: es)) =
      .next { s with agenda := es, reads := s.targetValue Config.thisHardware t :: s.reads } := by
  subst hd
  exact step_read_value s es ha hl (.inl hb)

/-- The registers in the order of R22. -/
def registersInOrder : List Reg :=
  [.cmd, .status, .arg0, .result, .a, .b, .seed, .nameLen, .key1Len, .key2Len, .fkey0, .fkey1, .fkey2, .fkey3, .mti,
    .pairIdx, .pairsLeft, .k1CurLen, .k2CurLen, .id]

/-- Settles O49: the twenty offsets and words are each register's own. -/
theorem registerReadsReturnTheRegister : Obligations.RegisterReadsReturnTheRegister := by
  intro s es hb
  show ∀ av ∈ registersInOrder.map (fun r => (Reg.offset r, s.regValue r)), _
  rw [List.forall_mem_map]
  exact fun r _ => step_read_reg s es r (.inl hb)

/-- The address of an element of K1 reaches that element (R63). -/
theorem decodeAddr_k1_element {i : Nat} (h : i < 1024) :
    decodeAddr Config.thisHardware (0x08000 + 4 * i) = .k1 i := by
  rw [decodeAddr_k1 (by omega), show (0x08000 + 4 * i - 0x08000) / 4 = i by omega]

/-- The address of an element of K2 reaches that element (R63). -/
theorem decodeAddr_k2_element {i : Nat} (h : i < 4096) :
    decodeAddr Config.thisHardware (0x20000 + 4 * i) = .k2 i := by
  rw [decodeAddr_k2 (by omega), show (0x20000 + 4 * i - 0x20000) / 4 = i by omega]

/-- The address of an element of MT reaches that element (R63). -/
theorem decodeAddr_mt_element {i : Nat} (h : i < 624) :
    decodeAddr Config.thisHardware (0x30000 + 4 * i) = .mt i := by
  rw [decodeAddr_mt (by omega), show (0x30000 + 4 * i - 0x30000) / 4 = i by omega]

/-- Settles O50: the address of each element reaches that element, and a read answers what the target holds. -/
theorem arrayReadsReturnTheWord : Obligations.ArrayReadsReturnTheWord := by
  intro s es i hb
  refine ⟨fun hi => ?_, fun hi => ?_, fun hi => ?_, fun hi => ?_, fun hi => ?_, fun hi => ?_⟩
  · rw [← nameWindowWord_eq s hi]
    exact step_read_target s es hb (by omega) (by omega) (decodeAddr_name_word hi)
  · exact step_read_target s es hb (by omega) (by omega) (decodeAddr_ks1_element hi)
  · exact step_read_target s es hb (by omega) (by omega) (decodeAddr_k1_element hi)
  · exact step_read_target s es hb (by omega) (by omega) (decodeAddr_ks2_element hi)
  · exact step_read_target s es hb (by omega) (by omega) (decodeAddr_k2_element hi)
  · exact step_read_target s es hb (by omega) (by omega) (decodeAddr_mt_element hi)

/-- Settles O56: a read that answers puts one word on the host's record, and takes a free word only under BUSY. -/
theorem readsHaveNoSideEffect : Obligations.ReadsHaveNoSideEffect := by
  intro s t es addr bytes h
  obtain ⟨-, ⟨a, n, -, rfl⟩ | ⟨a, n, v, hx, -⟩⟩ := hostStep_cases (run := exec) (s := s.setAgenda es) h
  · rcases hostRead_cases Config.thisHardware (s.setAgenda es) a with ⟨hb, -, e⟩ | ⟨-, e⟩ <;> rw [e]
    · exact ⟨rfl, rfl, fun hidle => by rw [setAgenda_busy, hidle] at hb; cases hb⟩
    · exact ⟨rfl, rfl, fun _ => rfl⟩
  · cases hx

/-! ### Reserved addresses and writes under BUSY -/

/-- The reserved ranges of this hardware in numbers (R63, R71). -/
theorem decodeAddr_reserved {a : Nat}
    (h : (0x00050 ≤ a ∧ a < 0x00100) ∨ (0x00200 ≤ a ∧ a < 0x04000) ∨ (0x05000 ≤ a ∧ a < 0x08000) ∨
      (0x09000 ≤ a ∧ a < 0x10000) ∨ (0x14000 ≤ a ∧ a < 0x20000) ∨ (0x24000 ≤ a ∧ a < 0x30000) ∨
      (0x309C0 ≤ a ∧ a < 0x40000)) : decodeAddr Config.thisHardware a = .reserved := by
  rcases h with h | h | h | ⟨hlo, hhi⟩ | h | h | ⟨hlo, hhi⟩
  · exact decodeAddr_beyond_registers h
  · exact decodeAddr_before_ks1 h
  · exact decodeAddr_beyond_ks1 h
  · rcases Nat.lt_or_ge a 0x0C000 with h | h
    · exact decodeAddr_beyond_k1 ⟨hlo, h⟩
    · exact decodeAddr_before_ks2 ⟨h, hhi⟩
  · exact decodeAddr_beyond_ks2 h
  · exact decodeAddr_beyond_k2 h
  · rcases Nat.lt_or_ge a 0x31000 with h | h
    · exact decodeAddr_beyond_mt ⟨hlo, h⟩
    · exact decodeAddr_last h

/-- Settles O51: no command writes a reserved address, so R73 leaves its value 0 under BUSY too, and a write there
stores nothing. -/
theorem reservedAddressesReadZeroAndIgnoreWrites : Obligations.ReservedAddressesReadZeroAndIgnoreWrites := by
  intro s es addr v ha h
  have hd := decodeAddr_reserved h
  have hl : addr < 2 ^ 18 := by omega
  refine ⟨?_, fun hb => ?_⟩
  · rw [step_read_value s es ha hl (.inr (by rw [hd]; rfl)), hd]
    rfl
  · rw [step_write_target s es v ha hl hb (by rw [hd]; simp), hd, writeTarget_readOnly _ _ v rfl]

/-- Settles O12: the write is dropped before its address is looked at. -/
theorem busyDropsEveryHostWrite : Obligations.BusyDropsEveryHostWrite := by
  intro s es addr v hb ha hl
  rw [step_write s es v ha hl]
  rcases hostWrite_cases (run := exec) Config.thisHardware addr v (s.setAgenda es) with ⟨-, e⟩ | ⟨h, -⟩ | ⟨h, -⟩
  · rw [e]; rfl
  · rw [setAgenda_busy, hb] at h; cases h
  · rw [setAgenda_busy, hb] at h; cases h

/-! ### Host writes to the name window, KS1 and KS2 -/

/-- A word stored is read back. -/
theorem word_storeWord (s : State) (a : Nat) (v : Word) : (s.storeWords a [v]).word a = v :=
  word_storeWords_inside s a [v] 0 Nat.one_pos

/-- Byte `k` of a word stored. -/
theorem byte_storeWord (s : State) (a : Nat) (v : Word) {k : Nat} (hk : k < 4) :
    (s.storeWords a [v]).byte (a + k) = v.extractLsb' (8 * k) 8 :=
  byte_storeWords_inside s a [v] 0 k Nat.one_pos hk

/-- A store of one word leaves the other bytes; the events to come do not matter to them. -/
theorem sameOutside_storeWord (s : State) (es : List Event) (a : Nat) (v : Word) :
    SameOutside s ((s.setAgenda es).storeWords a [v]) a 4 :=
  fun x hx => byte_storeWords_outside (s.setAgenda es) a [v] x hx

/-- All four bytes of a word of the name window exist in this hardware, so a write stores the whole word (R65). -/
theorem writeTarget_name (s : State) {q : Nat} (v : Word) (h : q < 64) :
    s.writeTarget Config.thisHardware (.name q) v = s.storeWords (0x00100 + 4 * q) [v] := by
  show s.setMem (Memory.store s.mem (0x00100 + 4 * q) ((bytesOfWord v).take (256 - 4 * q))) = _
  rw [List.take_of_length_le (by rw [bytesOfWord_length]; omega)]
  rfl

/-- A word of the name window is the word at its address, as for the other arrays (R65). -/
theorem nameWindowWord_eq_word (s : State) {q : Nat} (h : q < 64) :
    s.nameWindowWord Config.thisHardware q = s.word (0x00100 + 4 * q) := by
  rw [nameWindowWord_eq s h, word_eq]
  rfl

/-- A host write to a word of the name window. -/
theorem step_write_name (s : State) (es : List Event) {q : Nat} (v : Word) (hb : s.busy = false) (h : q < 64) :
    step (s.setAgenda (.host (.write (0x00100 + 4 * q) 4 v) :: es)) =
      .next ((s.setAgenda es).storeWords (0x00100 + 4 * q) [v]) := by
  have hd := decodeAddr_name_word h
  rw [step_write_target s es v (by omega) (by omega) hb (by rw [hd]; simp), hd, writeTarget_name _ v h]

/-- A host write to an element of KS1 (R66). -/
theorem step_write_ks1 (s : State) (es : List Event) {i : Nat} (v : Word) (hb : s.busy = false) (h : i < 1024) :
    step (s.setAgenda (.host (.write (0x04000 + 4 * i) 4 v) :: es)) =
      .next ((s.setAgenda es).storeWords (0x04000 + 4 * i) [v]) := by
  have hd := decodeAddr_ks1_element h
  rw [step_write_target s es v (by omega) (by omega) hb (by rw [hd]; simp), hd]
  rfl

/-- A host write to an element of KS2 (R66). -/
theorem step_write_ks2 (s : State) (es : List Event) {i : Nat} (v : Word) (hb : s.busy = false) (h : i < 4096) :
    step (s.setAgenda (.host (.write (0x10000 + 4 * i) 4 v) :: es)) =
      .next ((s.setAgenda es).storeWords (0x10000 + 4 * i) [v]) := by
  have hd := decodeAddr_ks2_element h
  rw [step_write_target s es v (by omega) (by omega) hb (by rw [hd]; simp), hd]
  rfl

/-- Settles O54: the write stores one word at the window's address, byte by byte least significant first, and the read
takes the same four bytes. -/
theorem nameWindowPacksLittleEndian : Obligations.NameWindowPacksLittleEndian := by
  intro s es q v hb hq
  refine ⟨_, step_write_name s es v hb hq, rfl, fun k hk => ?_, sameOutside_storeWord s es _ v, fun fs => ?_⟩
  · rw [State.nameByte, nameBase, ← Nat.add_assoc, byte_storeWord _ _ v hk]
  · have hread := step_read_target ((s.setAgenda es).storeWords (0x00100 + 4 * q) [v]) fs hb (by omega) (by omega)
      (decodeAddr_name_word hq)
    rwa [State.targetValue, nameWindowWord_eq_word _ hq, word_storeWord] at hread

/-- Settles O55: the write stores one word at the element's address. -/
theorem keySourceWritesStoreTheWord : Obligations.KeySourceWritesStoreTheWord := by
  intro s es i v hb
  refine ⟨fun hi => ?_, fun hi => ?_⟩
  · exact ⟨_, step_write_ks1 s es v hb hi, rfl, word_storeWord _ _ v, sameOutside_storeWord s es _ v⟩
  · exact ⟨_, step_write_ks2 s es v hb hi, rfl, word_storeWord _ _ v, sameOutside_storeWord s es _ v⟩

end Sys2Proof.Machine

/-! SUPPORT. Command words: the decoder and the encoder are inverse, which words are legal, and what an illegal one
does. -/

namespace Sys2Proof

/-! ### Decoding and encoding -/

/-- Each command's word decodes to it, with RSV = 0, command by command. -/
theorem encodeDecode_statement : ∀ i : Instr, Laws.EncodeDecode.Statement i
  | .nop => Laws.EncodeDecode.nop
  | .errClear => Laws.EncodeDecode.errClear
  | .prngSeed => Laws.EncodeDecode.prngSeed
  | .prngNext => Laws.EncodeDecode.prngNext
  | .nameSeed => Laws.EncodeDecode.nameSeed
  | .nameSeedRaw => Laws.EncodeDecode.nameSeedRaw
  | .fileKey => Laws.EncodeDecode.fileKey
  | .keyCopy => Laws.EncodeDecode.keyCopy
  | .keyXor => Laws.EncodeDecode.keyXor
  | .descramble => Laws.EncodeDecode.descramble
  | .fileSetup => Laws.EncodeDecode.fileSetup
  | .blockEnc => Laws.EncodeDecode.blockEnc
  | .blockDec => Laws.EncodeDecode.blockDec
  | .sfunc => Laws.EncodeDecode.sfunc
  | .streamBegin => Laws.EncodeDecode.streamBegin
  | .streamPair => Laws.EncodeDecode.streamPair

theorem decode_encode (i : Instr) : decode (encode i) = .ok i := (encodeDecode_statement i).1

theorem reservedField_encode (i : Instr) : reservedField (encode i) = 0#24 := (encodeDecode_statement i).2.1

theorem opcodeOf_encode (i : Instr) : opcodeOf (opcodeField (encode i)) = some i :=
  ((decode_ok_iff _ i).1 (decode_encode i)).2

/-- The opcode map is injective: an OPC stands for a command exactly when it is that of the command's word. -/
theorem opcodeOf_eq_some_iff (c : Byte) (i : Instr) : opcodeOf c = some i ↔ c = opcodeField (encode i) := by
  refine ⟨opcodeOf_eq_some, fun h => ?_⟩
  rw [h, opcodeOf_encode]

/-- A word decodes to a command exactly when it is the command's word: RSV and OPC fix all of its bits (R90). -/
theorem decode_eq_ok_iff (w : Word) (i : Instr) : decode w = .ok i ↔ w = encode i := by
  refine ⟨fun h => ?_, fun h => h ▸ decode_encode i⟩
  obtain ⟨hrsv, hopc⟩ := (decode_ok_iff w i).1 h
  rw [opcodeOf_eq_some_iff] at hopc
  calc w = reservedField w ++ opcodeField w := (word_of_fields w).symm
    _ = reservedField (encode i) ++ opcodeField (encode i) := by rw [hrsv, hopc, reservedField_encode]
    _ = encode i := word_of_fields _

/-- Settles O1: both halves say that a word decodes to a command exactly when it is the command's word. -/
theorem decodeAndEncodeAreInverse : Obligations.DecodeAndEncodeAreInverse :=
  ⟨fun i _ => decode_encode i, fun w i => (decode_eq_ok_iff w i).1⟩

/-! ### The legal words -/

/-- The sixteen commands in the order of R94. -/
def commandsInOrder : List Instr :=
  [.nop, .errClear, .prngSeed, .prngNext, .nameSeed, .nameSeedRaw, .fileKey, .keyCopy, .keyXor, .descramble, .fileSetup,
    .blockEnc, .blockDec, .sfunc, .streamBegin, .streamPair]

theorem mem_commandsInOrder (i : Instr) : i ∈ commandsInOrder := by cases i <;> decide

/-- A value is that of some command exactly when it is in the table of the commands' values. -/
theorem exists_eq_iff_mem_map {α : Type} (f : Instr → α) (x : α) : (∃ i, x = f i) ↔ x ∈ commandsInOrder.map f := by
  simp [mem_commandsInOrder, eq_comm]

/-- A word is a legal command exactly when RSV = 0 and OPC is that of some command. -/
theorem exists_decode_iff_fields (w : Word) :
    (∃ i, decode w = .ok i) ↔ reservedField w = 0#24 ∧ ∃ i, opcodeField w = opcodeField (encode i) := by
  simp only [decode_ok_iff, opcodeOf_eq_some_iff, exists_and_left]

/-- Settles O2: the sixteen OPC values and the sixteen words are those of the sixteen commands. -/
theorem legalWordsAreTheSixteen : Obligations.LegalWordsAreTheSixteen := by
  intro w
  refine ⟨(exists_decode_iff_fields w).trans (and_congr_right fun _ => ?_), ?_⟩
  · exact exists_eq_iff_mem_map (fun i => opcodeField (encode i)) _
  · simp only [decode_eq_ok_iff]
    exact exists_eq_iff_mem_map encode w

/-! ### The illegal words -/

theorem decode_of_reserved_ne {w : Word} (h : reservedField w ≠ 0#24) : decode w = .error .reservedNotZero := if_neg h

theorem decode_of_opcode_none {w : Word} (hrsv : reservedField w = 0#24) (hopc : opcodeOf (opcodeField w) = none) :
    decode w = .error .unknownOpcode := by
  simp [decode, hrsv, hopc]

/-- Settles O3: five words are those of their commands; the other two have a bit of RSV set, and an OPC outside the
map. -/
theorem sampleWordsDecode : Obligations.SampleWordsDecode :=
  ⟨decode_encode .errClear, decode_encode .prngNext, decode_encode .fileKey, decode_encode .descramble,
    decode_encode .streamPair, decode_of_reserved_ne (by decide), decode_of_opcode_none rfl rfl⟩

end Sys2Proof

namespace Sys2Proof.Machine

/-- A write to CMD while BUSY = 0 issues the word (R223). -/
theorem step_write_cmd (s : State) (es : List Event) (w : Word) (hb : s.busy = false) :
    step (s.setAgenda (.host (.write 0x00000 4 w) :: es)) = issueWord exec w (s.setAgenda es) := by
  rw [step_write s es w rfl (by decide)]
  rcases hostWrite_cases (run := exec) Config.thisHardware 0x00000 w (s.setAgenda es) with ⟨h, -⟩ | ⟨-, -, e⟩ | ⟨-, h, -⟩
  · rw [setAgenda_busy, hb] at h; cases h
  · exact e
  · exact absurd rfl h

/-- The first error is recorded (R224). -/
theorem raiseErr_of_err_zero {s : State} (c : ErrCode) (h : s.err = 0#4) : s.raiseErr c = { s with err := c.code } := by
  rw [State.raiseErr, if_pos h]

/-- Settles O8: such a word decodes to no command, so its issue records ILLEGAL. -/
theorem illegalWordRaisesIllegal : Obligations.IllegalWordRaisesIllegal := by
  intro s es w hb he hw
  have hillegal : ¬ ∃ i, decode w = .ok i := by
    rw [(legalWordsAreTheSixteen w).1, not_and_or]
    exact hw
  rw [step_write_cmd s es w hb]
  rcases issueWord_cases (run := exec) w (s.setAgenda es) with ⟨i, hd, -⟩ | ⟨-, h, -⟩ | ⟨-, -, e⟩
  · exact absurd ⟨i, hd⟩ hillegal
  · exact absurd he h
  · have hraise : (s.setAgenda es).raiseErr .illegal = { s.setAgenda es with err := 3 } := raiseErr_of_err_zero _ he
    rw [e, hraise]
    rfl

end Sys2Proof.Machine

/-! SUPPORT. What a completing command leaves as it was: the arrays effect by effect, then each clause of the "writes"
column of spec/30_encoding.md R95 over the sixteen commands. -/

namespace Sys2Proof.Machine

/-! ### Frames of the arrays -/

theorem SameOutside.refl (s : State) (lo n : Nat) : SameOutside s s lo n := fun _ _ => rfl

theorem SameOutside.trans {s t u : State} {lo n : Nat} (h : SameOutside s t lo n) (h' : SameOutside t u lo n) :
    SameOutside s u lo n := fun x hx => (h' x hx).trans (h x hx)

/-- A frame holds of every larger range. -/
theorem SameOutside.mono {s t : State} {lo n lo' n' : Nat} (h : SameOutside s t lo n) (hlo : lo' ≤ lo)
    (hhi : lo + n ≤ lo' + n') : SameOutside s t lo' n' := fun x hx => h x (by omega)

/-- A change of registers leaves every byte. -/
theorem SameOutside.of_mem {s t u : State} {lo n : Nat} (h : SameOutside s t lo n) (hm : u.mem = t.mem)
    (he : u.epoch = t.epoch) : SameOutside s u lo n := fun x hx => (byte_congr hm he x).trans (h x hx)

/-- The FKEY registers are no part of the arrays. -/
theorem SameOutside.setFileKey {s t : State} {lo n : Nat} (h : SameOutside s t lo n) (w0 w1 w2 w3 : Word) :
    SameOutside s { t with fkey0 := w0, fkey1 := w1, fkey2 := w2, fkey3 := w3 } lo n := h.of_mem rfl rfl

/-- The flags that FILE_KEY sets are no part of the arrays. -/
theorem SameOutside.setValid {s t : State} {lo n : Nat} (h : SameOutside s t lo n) (seeded keyed : Bool) :
    SameOutside s { t with prngValid := seeded, fkeyValid := keyed } lo n := h.of_mem rfl rfl

/-- MT beyond the range written is kept. -/
theorem SameOutside.mtWord_eq {s t : State} {lo n : Nat} (h : SameOutside s t lo n)
    (hr : lo + n ≤ 0x30000 ∨ 0x31000 ≤ lo) {k : Nat} (hk : k < 624) : t.mtWord k = s.mtWord k :=
  mtWord_congr (fun x hlo hhi => h x (by omega)) k (by omega)

/-- K1 beyond the range written is kept. -/
theorem SameOutside.k1Word_eq {s t : State} {lo n : Nat} (h : SameOutside s t lo n)
    (hr : lo + n ≤ 0x08000 ∨ 0x0C000 ≤ lo) {k : Nat} (hk : k < 1024) : t.k1Word k = s.k1Word k :=
  k1Word_congr (fun x hlo hhi => h x (by omega)) k (by omega)

/-- K2 beyond the range written is kept. -/
theorem SameOutside.k2Word_eq {s t : State} {lo n : Nat} (h : SameOutside s t lo n)
    (hr : lo + n ≤ 0x20000 ∨ 0x30000 ≤ lo) {k : Nat} (hk : k < 4096) : t.k2Word k = s.k2Word k :=
  k2Word_congr (fun x hlo hhi => h x (by omega)) k (by omega)

/-! ### What the effects leave of the arrays -/

theorem sameOutside_storeMT (s : State) (ws : List Word) : SameOutside s (s.storeMT ws) 0x30000 0x009C0 :=
  fun x hx => byte_storeMT_outside s ws x (by omega)

theorem sameOutside_storeK1 (s : State) (ws : List Word) :
    SameOutside s (s.storeK1 Config.thisHardware ws) 0x08000 0x01000 :=
  fun x hx => byte_storeK1_outside s ws x (by omega)

theorem sameOutside_storeK2 (s : State) (ws : List Word) :
    SameOutside s (s.storeK2 Config.thisHardware ws) 0x20000 0x04000 :=
  fun x hx => byte_storeK2_outside s ws x (by omega)

theorem sameOutside_mtSeed (s : State) (v : Word) : SameOutside s (s.mtSeed v) 0x30000 0x009C0 :=
  (sameOutside_storeMT s (mtInit v)).of_mem rfl rfl

theorem sameOutside_twistIfDue (s : State) : SameOutside s s.twistIfDue 0x30000 0x009C0 := by
  unfold State.twistIfDue
  split
  · exact sameOutside_storeMT s _
  · exact .refl s _ _

theorem sameOutside_drawNext (s : State) : SameOutside s s.drawNext 0x30000 0x009C0 :=
  (sameOutside_twistIfDue s).of_mem rfl rfl

theorem sameOutside_drawFileKey (s : State) : SameOutside s s.drawFileKey 0x30000 0x009C0 :=
  ((((sameOutside_drawNext s).trans (sameOutside_drawNext _)).trans (sameOutside_drawNext _)).trans
    (sameOutside_drawNext _)).setFileKey _ _ _ _

/-- FILE_KEY writes no array but MT (R139). -/
theorem sameOutside_fileKeyEffect (p : Config.Params) (s : State) :
    SameOutside s (fileKeyEffect p s) 0x30000 0x009C0 := by
  unfold fileKeyEffect
  generalize seedFromBytes _ = v
  have hseed : SameOutside s { s with seed := v } 0x30000 0x009C0 := (SameOutside.refl s _ _).of_mem rfl rfl
  exact ((hseed.trans (sameOutside_mtSeed _ v)).trans (sameOutside_drawFileKey _)).setValid true true

/-- K1 and K2 are stored one after the other: nothing below K1 and nothing above K2 is reached. -/
theorem sameOutside_storeKeys (s : State) (ws vs : List Word) :
    SameOutside s ((s.storeK1 Config.thisHardware ws).storeK2 Config.thisHardware vs) 0x08000 0x1C000 :=
  ((sameOutside_storeK1 s ws).mono (by omega) (by omega)).trans
    ((sameOutside_storeK2 _ vs).mono (by omega) (by omega))

/-- KEY_COPY writes no array but K1 and K2 (R159). -/
theorem sameOutside_keyCopyEffect (s : State) :
    SameOutside s (keyCopyEffect Config.thisHardware s) 0x08000 0x1C000 :=
  (sameOutside_storeKeys s _ _).of_mem rfl rfl

/-- KEY_XOR writes no array but K1 (R160). -/
theorem sameOutside_keyXorEffect (s : State) : SameOutside s (keyXorEffect Config.thisHardware s) 0x08000 0x01000 :=
  (sameOutside_storeK1 s _).of_mem rfl rfl

/-- DESCRAMBLE writes no array but K1 and K2 (R161). -/
theorem sameOutside_descrambleEffect (s : State) :
    SameOutside s (descrambleEffect Config.thisHardware s) 0x08000 0x1C000 := by
  have habort : SameOutside s s.streamAbort 0x08000 0x1C000 := (SameOutside.refl s _ _).of_mem rfl rfl
  exact (habort.trans (sameOutside_storeKeys _ _ _)).of_mem rfl rfl

/-- SFUNC writes no array (R165). -/
theorem sameOutside_sfuncEffect (s : State) (lo n : Nat) : SameOutside s (sfuncEffect s) lo n := by
  unfold sfuncEffect
  generalize sBox _ _ = w
  exact (SameOutside.refl s lo n).of_mem rfl rfl

/-- The commands whose row names no array leave every byte (R95). -/
theorem sameOutside_completionEffect {i : Instr}
    (h : i ∉ [Instr.prngSeed, .prngNext, .fileKey, .keyCopy, .keyXor, .descramble, .fileSetup]) (s : State)
    (lo n : Nat) : SameOutside s (completionEffect Config.thisHardware i s) lo n := by
  cases i with
  | prngSeed | prngNext | fileKey | keyCopy | keyXor | descramble | fileSetup => simp at h
  | sfunc => exact sameOutside_sfuncEffect s lo n
  | _ => exact (SameOutside.refl s lo n).of_mem rfl rfl

/-- The commands whose row names MT and no other array write nothing outside it (R95). -/
theorem sameOutside_completionEffect_mt {i : Instr} (h : i ∈ [Instr.prngSeed, .prngNext, .fileKey]) (s : State) :
    SameOutside s (completionEffect Config.thisHardware i s) 0x30000 0x009C0 := by
  simp only [List.mem_cons, List.not_mem_nil, or_false] at h
  rcases h with rfl | rfl | rfl
  · exact (sameOutside_mtSeed s s.arg0).of_mem rfl rfl
  · exact (sameOutside_drawNext s).of_mem rfl rfl
  · exact sameOutside_fileKeyEffect _ s

/-! ### The "writes" column for the arrays -/

section Arrays

variable {i : Instr} (s : State) {k : Nat}

/-- MT is written by the commands that seed the generator or draw from it (R45). -/
theorem completionEffect_mtWord (h : i ∉ [Instr.prngSeed, .prngNext, .fileKey, .fileSetup]) (hk : k < 624) :
    (completionEffect Config.thisHardware i s).mtWord k = s.mtWord k := by
  cases i with
  | prngSeed | prngNext | fileKey | fileSetup => simp at h
  | keyCopy => exact (sameOutside_keyCopyEffect s).mtWord_eq (by omega) hk
  | keyXor => exact (sameOutside_keyXorEffect s).mtWord_eq (by omega) hk
  | descramble => exact (sameOutside_descrambleEffect s).mtWord_eq (by omega) hk
  | _ => exact (sameOutside_completionEffect (by simp) s 0 0).mtWord_eq (by omega) hk

/-- K1 is written by KEY_COPY, KEY_XOR and DESCRAMBLE, hence by FILE_SETUP (R48). -/
theorem completionEffect_k1Word (h : i ∉ [Instr.keyCopy, .keyXor, .descramble, .fileSetup]) (hk : k < 1024) :
    (completionEffect Config.thisHardware i s).k1Word k = s.k1Word k := by
  cases i with
  | keyCopy | keyXor | descramble | fileSetup => simp at h
  | prngSeed | prngNext | fileKey => exact (sameOutside_completionEffect_mt (by simp) s).k1Word_eq (by omega) hk
  | _ => exact (sameOutside_completionEffect (by simp) s 0 0).k1Word_eq (by omega) hk

/-- K2 is written by KEY_COPY and DESCRAMBLE, hence by FILE_SETUP (R49). -/
theorem completionEffect_k2Word (h : i ∉ [Instr.keyCopy, .descramble, .fileSetup]) (hk : k < 4096) :
    (completionEffect Config.thisHardware i s).k2Word k = s.k2Word k := by
  cases i with
  | keyCopy | descramble | fileSetup => simp at h
  | prngSeed | prngNext | fileKey => exact (sameOutside_completionEffect_mt (by simp) s).k2Word_eq (by omega) hk
  | keyXor => exact (sameOutside_keyXorEffect s).k2Word_eq (by omega) hk
  | _ => exact (sameOutside_completionEffect (by simp) s 0 0).k2Word_eq (by omega) hk

end Arrays

/-! ### The "writes" column for the registers -/

/-- Every register that is not in the row of `i` in the table of R95 is the same in both states; by register, the rows
are the "written by" column of R22. -/
structure RegistersKept (i : Instr) (s t : State) : Prop where
  /-- ARG0, NAME_LEN, KEY1_LEN and KEY2_LEN, which no command writes. -/
  operands : t.arg0 = s.arg0 ∧ t.nameLen = s.nameLen ∧ t.key1Len = s.key1Len ∧ t.key2Len = s.key2Len
  /-- STATUS.ERR. -/
  err : i ≠ .errClear → t.err = s.err
  /-- RESULT. -/
  result : i ∉ [Instr.prngNext, .sfunc] → t.result = s.result
  /-- A and B. -/
  pair : i ∉ [Instr.descramble, .fileSetup, .blockEnc, .blockDec, .streamPair] → t.a = s.a ∧ t.b = s.b
  /-- SEED. -/
  seed : i ∉ [Instr.nameSeed, .nameSeedRaw, .fileKey, .fileSetup] → t.seed = s.seed
  /-- FKEY0-3 and FKEY_VALID. -/
  fileKey : i ∉ [Instr.fileKey, .fileSetup] →
    t.fkey0 = s.fkey0 ∧ t.fkey1 = s.fkey1 ∧ t.fkey2 = s.fkey2 ∧ t.fkey3 = s.fkey3 ∧ t.fkeyValid = s.fkeyValid
  /-- MTI. -/
  mti : i ∉ [Instr.prngSeed, .prngNext, .fileKey, .fileSetup] → t.mti = s.mti
  /-- PRNG_VALID. -/
  prngValid : i ∉ [Instr.prngSeed, .fileKey, .fileSetup] → t.prngValid = s.prngValid
  /-- PAIR_IDX. -/
  pairIdx : i ∉ [Instr.streamBegin, .streamPair] → t.pairIdx = s.pairIdx
  /-- PAIRS_LEFT, STREAM_ACTIVE and EMIT. -/
  stream : i ∉ [Instr.keyCopy, .keyXor, .descramble, .fileSetup, .streamBegin, .streamPair] →
    t.pairsLeft = s.pairsLeft ∧ t.streamActive = s.streamActive ∧ t.emit = s.emit
  /-- K1_CUR_LEN, K2_CUR_LEN and KEYS_COPIED. -/
  latched : i ∉ [Instr.keyCopy, .fileSetup] →
    t.k1CurLen = s.k1CurLen ∧ t.k2CurLen = s.k2CurLen ∧ t.keysCopied = s.keysCopied
  /-- KEYS_READY. -/
  keysReady : i ∉ [Instr.keyCopy, .keyXor, .descramble, .fileSetup] → t.keysReady = s.keysReady

/-- Each effect writes the registers of its row only. -/
theorem registersKept_completionEffect (i : Instr) (s : State) :
    RegistersKept i s (completionEffect Config.thisHardware i s) := by
  cases i with
  | nop => constructor <;> simp [completionEffect, nopEffect]
  | errClear => constructor <;> simp [completionEffect, errClearEffect]
  | prngSeed => constructor <;> simp [completionEffect, prngSeedEffect]
  | prngNext => constructor <;> simp [completionEffect, prngNextEffect]
  | nameSeed => constructor <;> simp [completionEffect, nameSeedEffect]
  | nameSeedRaw => constructor <;> simp [completionEffect, nameSeedRawEffect]
  | fileKey => constructor <;> simp [completionEffect]
  | keyCopy => constructor <;> simp [completionEffect]
  | keyXor => constructor <;> simp [completionEffect]
  | descramble => constructor <;> simp [completionEffect]
  | fileSetup => constructor <;> simp [completionEffect, fileSetupEffect]
  | blockEnc => constructor <;> simp [completionEffect, blockEncEffect]
  | blockDec => constructor <;> simp [completionEffect, blockDecEffect]
  | sfunc => constructor <;> simp [completionEffect, sfuncEffect]
  | streamBegin => constructor <;> simp [completionEffect, streamBeginEffect]
  | streamPair => constructor <;> simp [completionEffect, streamPairEffect]

/-- Settles O20: the end of the completion step changes INFLIGHT and BUSY only, and the effect before it leaves every
register and array that is not in the command's row. -/
theorem commandsWriteOnlyTheirRow : Obligations.CommandsWriteOnlyTheirRow := by
  intro i s t hi h
  rw [exec_completes hi] at h
  cases h
  have hregs := registersKept_completionEffect i s
  exact ⟨hregs.operands, hregs.err, hregs.result, hregs.pair, hregs.seed, hregs.fileKey,
    fun h => ⟨hregs.mti h, fun _ hk => completionEffect_mtWord s h hk⟩, hregs.prngValid, hregs.pairIdx, hregs.stream,
    hregs.latched, fun h => ⟨hregs.keysReady h, fun _ hk => completionEffect_k1Word s h hk⟩,
    fun h _ hk => completionEffect_k2Word s h hk⟩

end Sys2Proof.Machine

/-! SUPPORT. The generator of spec/40_prng.md: the seeding recurrence, the twist in place, the tempering, and what the
commands PRNG_SEED and PRNG_NEXT leave. -/

namespace Sys2Proof.Machine

/-! ### Seeding -/

/-- Each word of the recurrence's tail comes from the word before it. -/
theorem seedTail_getD (n i : Nat) (prev d : Word) {k : Nat} (hk : k < n) :
    (seedTail n i prev).getD k d = seedStep (i + k) ((prev :: seedTail n i prev).getD k d) := by
  induction n generalizing i prev k with
  | zero => exact absurd hk (Nat.not_lt_zero k)
  | succ n ih =>
    cases k with
    | zero => rfl
    | succ k =>
      have htail := ih (i + 1) (seedStep i prev) (Nat.lt_of_succ_lt_succ hk)
      rwa [show i + 1 + k = i + (k + 1) by omega] at htail

/-- The recurrence of R111, after word 0. -/
theorem mtInit_getD_succ (v : Word) {k : Nat} (hk : k < 623) :
    (mtInit v).getD (k + 1) 0 = seedStep (k + 1) ((mtInit v).getD k 0) := by
  have htail := seedTail_getD 623 1 v 0 hk
  rwa [Nat.add_comm 1 k] at htail

/-! ### The twist -/

/-- The first `n` iterations of the twist loop (R112). -/
def twistTo (mt : List Word) (n : Nat) : List Word := (List.range n).foldl twistStep mt

theorem twist_eq_twistTo (mt : List Word) : twist mt = twistTo mt 624 := rfl

theorem twistTo_succ (mt : List Word) (n : Nat) : twistTo mt (n + 1) = twistStep (twistTo mt n) n := by
  simp [twistTo, List.range_succ]

@[simp] theorem twistTo_length (mt : List Word) (n : Nat) : (twistTo mt n).length = mt.length :=
  foldl_length _ twistStep_length _ _

/-- The loop has not reached the words from index `n` on. -/
theorem twistTo_getD_of_le (mt : List Word) {n j : Nat} (h : n ≤ j) : (twistTo mt n).getD j 0 = mt.getD j 0 := by
  induction n with
  | zero => rfl
  | succ n ih => rw [twistTo_succ, twistStep_getD_ne _ (by omega), ih (by omega)]

/-- The loop does not come back to the words before index `n`. -/
theorem twistTo_getD_of_lt (mt : List Word) {n j : Nat} (hj : j < n) (hn : n ≤ 624) :
    (twistTo mt n).getD j 0 = (twist mt).getD j 0 := by
  rw [twist_eq_twistTo]
  induction hn using Nat.decreasingInduction with
  | self => rfl
  | of_succ n _ ih => rw [← ih (by omega), twistTo_succ, twistStep_getD_ne _ (by omega)]

/-- The word that an iteration writes. -/
theorem twistStep_getD_self {mt : List Word} {i : Nat} (h : i < mt.length) :
    (twistStep mt i).getD i 0 =
      twistWord (mt.getD i 0) (mt.getD ((i + 1) % 624) 0) (mt.getD ((i + 397) % 624) 0) := by
  simp [twistStep, mtWords, mtOffset, List.getD, h]

/-- The twist in place (R112): the last word finds word 0 regenerated, and the words from 227 on find the word at the
twist offset regenerated. -/
theorem twist_getD {mt : List Word} (hl : mt.length = 624) {i : Nat} (hi : i < 624) :
    (twist mt).getD i 0 =
      twistWord (mt.getD i 0) (if i = 623 then (twist mt).getD 0 0 else mt.getD (i + 1) 0)
        (if i < 227 then mt.getD (i + 397) 0 else (twist mt).getD (i - 227) 0) := by
  have hnext : (twistTo mt i).getD ((i + 1) % 624) 0 =
      if i = 623 then (twist mt).getD 0 0 else mt.getD (i + 1) 0 := by
    split
    · rw [show (i + 1) % 624 = 0 by omega, twistTo_getD_of_lt mt (by omega) (by omega)]
    · rw [show (i + 1) % 624 = i + 1 by omega, twistTo_getD_of_le mt (by omega)]
  have hfar : (twistTo mt i).getD ((i + 397) % 624) 0 =
      if i < 227 then mt.getD (i + 397) 0 else (twist mt).getD (i - 227) 0 := by
    split
    · rw [show (i + 397) % 624 = i + 397 by omega, twistTo_getD_of_le mt (by omega)]
    · rw [show (i + 397) % 624 = i - 227 by omega, twistTo_getD_of_lt mt (by omega) (by omega)]
  calc (twist mt).getD i 0 = (twistTo mt (i + 1)).getD i 0 := (twistTo_getD_of_lt mt (by omega) (by omega)).symm
    _ = (twistStep (twistTo mt i) i).getD i 0 := by rw [twistTo_succ]
    _ = _ := by rw [twistStep_getD_self (by simp [hl, hi]), twistTo_getD_of_le mt le_rfl, hnext, hfar]

/-! ### Tempering -/

/-- `x ↦ x xor f x` is injective when bits can be ranked so that a bit of `f x` depends on bits of `x` of lower rank
only: two words with the same image then agree bit by bit, in the order of the ranks. -/
theorem injective_xor_of_rank {f : Word → Word} (rank : Nat → Nat)
    (hf : ∀ x y i, i < 32 → (∀ j, rank j < rank i → x.getLsbD j = y.getLsbD j) →
      (f x).getLsbD i = (f y).getLsbD i) :
    Function.Injective (fun x => x ^^^ f x) := by
  intro x y hxy
  have hbit : ∀ r i, rank i = r → x.getLsbD i = y.getLsbD i := by
    intro r
    induction r using Nat.strong_induction_on with
    | _ r ih =>
      intro i hr
      by_cases hi : i < 32
      · have hfi := hf x y i hi fun j hj => ih (rank j) (hr ▸ hj) j rfl
        have hxi := congrArg (fun w => w.getLsbD i) hxy
        simpa [hfi] using hxi
      · rw [BitVec.getLsbD_of_ge x i (by omega), BitVec.getLsbD_of_ge y i (by omega)]
  exact BitVec.eq_of_getLsbD_eq fun i _ => hbit _ i rfl

/-- A step with a shift to the right loses nothing: the high bits come first. -/
theorem injective_xor_shiftRight {k : Nat} (hk : 0 < k) : Function.Injective (fun x : Word => x ^^^ (x >>> k)) :=
  injective_xor_of_rank (fun i => 32 - i) fun x y i hi h => by
    simp only [BitVec.getLsbD_ushiftRight]
    exact h (k + i) (by omega)

/-- A step with a shift to the left and a mask loses nothing: the low bits come first. -/
theorem injective_xor_shiftLeft_and {k : Nat} (hk : 0 < k) (mask : Word) :
    Function.Injective (fun x : Word => x ^^^ ((x <<< k) &&& mask)) :=
  injective_xor_of_rank id fun x y i _ h => by
    simp only [BitVec.getLsbD_and, BitVec.getLsbD_shiftLeft]
    by_cases hik : i < k
    · simp [hik]
    · rw [h (i - k) (by simp only [id]; omega)]

theorem temper_injective : Function.Injective temper :=
  (injective_xor_shiftRight (k := 18) (by omega)).comp <|
    (injective_xor_shiftLeft_and (k := 15) (by omega) temperMaskC).comp <|
      (injective_xor_shiftLeft_and (k := 7) (by omega) temperMaskB).comp <|
        injective_xor_shiftRight (k := 11) (by omega)

/-- Settles O26: each of the four steps is injective, and there are finitely many words. -/
theorem temperIsABijection : Obligations.TemperIsABijection :=
  ⟨fun _ => rfl, rfl, Finite.injective_iff_bijective.1 temper_injective⟩

/-! ### Seeding and drawing on the state -/

/-- MT depends on the arrays and the count of resets only. -/
theorem mtWord_of_mem {s t : State} (hm : t.mem = s.mem) (he : t.epoch = s.epoch) (i : Nat) : t.mtWord i = s.mtWord i :=
  word_congr fun _ _ => byte_congr hm he _

/-- A whole MT stored is read back word by word. -/
theorem mtWord_storeMT_getD (s : State) {ws : List Word} (hl : ws.length = 624) {i : Nat} (hi : i < 624) :
    (s.storeMT ws).mtWord i = ws.getD i 0 := by
  rw [mtWord_storeMT s ws i hi (by omega), List.getD_eq_getElem _ _ (by omega)]

theorem mtWord_mtSeed (s : State) (v : Word) {i : Nat} (hi : i < 624) : (s.mtSeed v).mtWord i = (mtInit v).getD i 0 :=
  (mtWord_of_mem rfl rfl i).trans (mtWord_storeMT_getD s (mtInit_length v) hi)

theorem loadMT_getD (s : State) {i : Nat} (hi : i < 624) : (s.loadWords mtBase mtWords).getD i 0 = s.mtWord i :=
  loadWords_getD s mtBase mtWords i 0 hi

/-- Away from MTI = 0 a draw does not twist (R114). -/
theorem twistIfDue_of_ne {s : State} (h : s.mti ≠ 0#10) : s.twistIfDue = s := if_neg h

/-- At MTI = 0 a draw twists first (R114). -/
theorem twistIfDue_of_zero {s : State} (h : s.mti = 0#10) :
    s.twistIfDue = s.storeMT (twist (s.loadWords mtBase mtWords)) := if_pos h

theorem mtWord_twistIfDue_of_zero {s : State} (h : s.mti = 0#10) {i : Nat} (hi : i < 624) :
    s.twistIfDue.mtWord i = (twist (s.loadWords mtBase mtWords)).getD i 0 := by
  rw [twistIfDue_of_zero h]
  exact mtWord_storeMT_getD s (by simp [mtWords]) hi

/-- The cursor's advance leaves the arrays. -/
@[simp] theorem drawNext_mem (s : State) : s.drawNext.mem = s.twistIfDue.mem := rfl

theorem mtWord_drawNext (s : State) (i : Nat) : s.drawNext.mtWord i = s.twistIfDue.mtWord i :=
  mtWord_of_mem (drawNext_mem s) (by simp) i

/-- The cursor goes round (R114). -/
theorem drawNext_mti_toNat (s : State) : s.drawNext.mti.toNat = (s.mti.toNat + 1) % 624 := by
  have hlt : (s.mti.toNat + 1) % 624 < 624 := Nat.mod_lt _ (by omega)
  rw [drawNext_mti, BitVec.toNat_ofNat]
  exact Nat.mod_eq_of_lt (hlt.trans (by omega))

/-! ### The commands at completion -/

/-- PRNG_SEED leaves every register but MTI and PRNG_VALID (R116). -/
theorem prngSeedEffect_eq (s : State) :
    prngSeedEffect s = { s with mem := (prngSeedEffect s).mem, mti := 0, prngValid := true } := rfl

@[simp] theorem prngSeedEffect_mem (s : State) : (prngSeedEffect s).mem = (s.mtSeed s.arg0).mem := rfl

@[simp] theorem prngSeedEffect_epoch (s : State) : (prngSeedEffect s).epoch = (s.mtSeed s.arg0).epoch := rfl

theorem mtWord_prngSeedEffect_retire (s : State) (i : Nat) :
    (prngSeedEffect s).retire.mtWord i = (s.mtSeed s.arg0).mtWord i := mtWord_of_mem (by simp) (by simp) i

theorem sameOutside_prngSeedEffect_retire (s : State) :
    SameOutside s (prngSeedEffect s).retire 0x30000 0x009C0 := (sameOutside_mtSeed s s.arg0).of_mem (by simp) (by simp)

/-- Settles O23: MT holds the words of `mtInit`, which are those of the recurrence. -/
theorem seedFillsTheRecurrence : Obligations.SeedFillsTheRecurrence := by
  intro s hs
  have hmt : ∀ i < 624, (prngSeedEffect s).retire.mtWord i = (mtInit s.arg0).getD i 0 := fun i hi => by
    rw [mtWord_prngSeedEffect_retire, mtWord_mtSeed s _ hi]
  refine ⟨(prngSeedEffect s).retire, exec_completes hs, congrArg State.retire (prngSeedEffect_eq s), hmt 0 (by omega),
    fun i hlo hhi => ?_, sameOutside_prngSeedEffect_retire s⟩
  obtain ⟨k, rfl⟩ : ∃ k, i = k + 1 := ⟨i - 1, by omega⟩
  rw [hmt _ (by omega), Nat.add_sub_cancel, hmt _ (by omega)]
  exact mtInit_getD_succ s.arg0 (by omega)

/-- PRNG_NEXT away from MTI = 0 leaves the arrays (R114, R117). -/
theorem prngNextEffect_of_ne {s : State} (h : s.mti ≠ 0#10) :
    prngNextEffect s = { s with
      result := temper (s.mtWord s.mti.toNat), mti := BitVec.ofNat 10 ((s.mti.toNat + 1) % 624) } := by
  unfold prngNextEffect State.drawNext State.drawWord
  rw [twistIfDue_of_ne h]
  rfl

/-- Settles O24: no twist is due. -/
theorem drawTempersTheWordAtTheCursor : Obligations.DrawTempersTheWordAtTheCursor := by
  intro s hs h0 _
  rw [exec_completes hs]
  show Host.Outcome.next (prngNextEffect s).retire = _
  rw [prngNextEffect_of_ne h0]
  rfl

/-- PRNG_NEXT at MTI = 0 draws word 0 of the twisted MT and leaves every register but RESULT and MTI (R114, R117). -/
theorem prngNextEffect_of_zero {s : State} (h : s.mti = 0#10) :
    prngNextEffect s = { s with
      mem := (prngNextEffect s).mem, result := temper ((prngNextEffect s).mtWord 0), mti := 1 } := by
  unfold prngNextEffect State.drawNext State.drawWord
  rw [twistIfDue_of_zero h, h]
  rfl

@[simp] theorem prngNextEffect_mem (s : State) : (prngNextEffect s).mem = s.drawNext.mem := rfl

@[simp] theorem prngNextEffect_epoch (s : State) : (prngNextEffect s).epoch = s.drawNext.epoch := rfl

theorem mtWord_prngNextEffect_retire (s : State) (i : Nat) :
    (prngNextEffect s).retire.mtWord i = s.twistIfDue.mtWord i :=
  (mtWord_of_mem (by simp) (by simp) i).trans (mtWord_drawNext s i)

theorem sameOutside_prngNextEffect_retire (s : State) :
    SameOutside s (prngNextEffect s).retire 0x30000 0x009C0 := (sameOutside_drawNext s).of_mem (by simp) (by simp)

/-- Settles O25: what MT held is loaded, twisted in place and stored whole. -/
theorem drawAtZeroTwistsInPlace : Obligations.DrawAtZeroTwistsInPlace := by
  intro s hs h0
  have hmt : ∀ i < 624, (prngNextEffect s).retire.mtWord i = (twist (s.loadWords mtBase mtWords)).getD i 0 :=
    fun i hi => by rw [mtWord_prngNextEffect_retire, mtWord_twistIfDue_of_zero h0 hi]
  refine ⟨(prngNextEffect s).retire, exec_completes hs, congrArg State.retire (prngNextEffect_of_zero h0),
    fun i hi => ?_, sameOutside_prngNextEffect_retire s⟩
  have hnext : (if i = 623 then (prngNextEffect s).retire.mtWord 0 else s.mtWord (i + 1)) =
      if i = 623 then (twist (s.loadWords mtBase mtWords)).getD 0 0
      else (s.loadWords mtBase mtWords).getD (i + 1) 0 := by
    split
    · exact hmt 0 (by omega)
    · exact (loadMT_getD s (by omega)).symm
  have hfar : (if i < 227 then s.mtWord (i + 397) else (prngNextEffect s).retire.mtWord (i - 227)) =
      if i < 227 then (s.loadWords mtBase mtWords).getD (i + 397) 0
      else (twist (s.loadWords mtBase mtWords)).getD (i - 227) 0 := by
    split
    · exact (loadMT_getD s (by omega)).symm
    · exact hmt _ (by omega)
  rw [hnext, hfar, hmt i hi, ← loadMT_getD s hi, twist_getD (loadWords_length s mtBase mtWords) hi]
  rfl

/-! ### The generator after a seeding -/

/-- The cursor counts the draws, by induction on their number (R118). -/
theorem mti_toNat_after_seeding (s : State) (v : Word) (k : Nat) :
    (State.drawNext^[k] (s.mtSeed v)).mti.toNat = k % 624 := by
  induction k with
  | zero => rfl
  | succ k ih => rw [Function.iterate_succ_apply', drawNext_mti_toNat, ih, Nat.mod_add_mod]

/-- Settles O28: the cursor's number fits its ten bits. -/
theorem cursorCountsDrawsModulo624 : Obligations.CursorCountsDrawsModulo624 := by
  intro s v k
  rw [← mti_toNat_after_seeding s v k, BitVec.ofNat_toNat, BitVec.setWidth_eq]

/-- The same cursor and the same MT: what the draws to come depend on. -/
structure SameGenerator (s t : State) : Prop where
  /-- The same MTI. -/
  mti_eq : s.mti = t.mti
  /-- The same words of MT. -/
  mt_eq : ∀ i < 624, s.mtWord i = t.mtWord i

theorem sameGenerator_mtSeed (s t : State) (v : Word) : SameGenerator (s.mtSeed v) (t.mtSeed v) where
  mti_eq := rfl
  mt_eq _ hi := (mtWord_mtSeed s v hi).trans (mtWord_mtSeed t v hi).symm

theorem SameGenerator.loadMT_eq {s t : State} (h : SameGenerator s t) :
    s.loadWords mtBase mtWords = t.loadWords mtBase mtWords := by
  rw [Machine.loadMT_eq, Machine.loadMT_eq]
  exact List.map_congr_left fun i hi => h.mt_eq i (List.mem_range.1 hi)

/-- A twist, if one is due, is due in both and gives both the same words. -/
theorem SameGenerator.twistIfDue {s t : State} (h : SameGenerator s t) : SameGenerator s.twistIfDue t.twistIfDue := by
  by_cases h0 : s.mti = 0#10
  · refine ⟨by simpa using h.mti_eq, fun i hi => ?_⟩
    rw [mtWord_twistIfDue_of_zero h0 hi, mtWord_twistIfDue_of_zero (h.mti_eq ▸ h0) hi, h.loadMT_eq]
  · rwa [twistIfDue_of_ne h0, twistIfDue_of_ne (h.mti_eq ▸ h0)]

theorem SameGenerator.drawNext {s t : State} (h : SameGenerator s t) : SameGenerator s.drawNext t.drawNext where
  mti_eq := by rw [drawNext_mti, drawNext_mti, h.mti_eq]
  mt_eq i hi := by rw [mtWord_drawNext, mtWord_drawNext, h.twistIfDue.mt_eq i hi]

theorem SameGenerator.drawWord_eq {s t : State} (h : SameGenerator s t) (hlt : s.mti.toNat < 624) :
    s.drawWord = t.drawWord := by
  unfold State.drawWord
  rw [h.twistIfDue.mt_eq _ hlt, h.mti_eq]

/-- Draws keep two generators the same. -/
theorem SameGenerator.iterate_drawNext {s t : State} (h : SameGenerator s t) (k : Nat) :
    SameGenerator (State.drawNext^[k] s) (State.drawNext^[k] t) := by
  induction k with
  | zero => exact h
  | succ k ih => rw [Function.iterate_succ_apply', Function.iterate_succ_apply']; exact ih.drawNext

/-- Settles O27: the seedings make the generators the same, and the draws keep them so. -/
theorem generatorIsAFunctionOfSeedAndCount : Obligations.GeneratorIsAFunctionOfSeedAndCount := by
  intro s1 s2 v k
  have h := (sameGenerator_mtSeed s1 s2 v).iterate_drawNext k
  have hlt : (State.drawNext^[k] (s1.mtSeed v)).mti.toNat < 624 := by
    rw [mti_toNat_after_seeding]
    exact Nat.mod_lt k (by omega)
  exact ⟨h.mti_eq, h.mt_eq, h.drawWord_eq hlt⟩

end Sys2Proof.Machine

/-! SUPPORT. Key derivation (spec/41_key_derivation.md): the byte swap, the seed hash, the normalisation of names, and
the file key as the first four draws of a generator just seeded. -/

namespace Sys2Proof.Machine

/-! ### The byte swap -/

/-- The bytes of a word made of four bytes are these. -/
theorem bytesOfWord_wordOfBytes (b0 b1 b2 b3 : Byte) : bytesOfWord (wordOfBytes b0 b1 b2 b3) = [b0, b1, b2, b3] := by
  have h0 : (b3 ++ b2 ++ b1 ++ b0).extractLsb' 0 8 = b0 := BitVec.extractLsb'_append_eq_right
  have h1 : (b3 ++ b2 ++ b1 ++ b0).extractLsb' 8 8 = b1 := by
    rw [BitVec.extractLsb'_append_eq_of_le (by omega)]
    exact BitVec.extractLsb'_append_eq_right
  have h2 : (b3 ++ b2 ++ b1 ++ b0).extractLsb' 16 8 = b2 := by
    rw [BitVec.extractLsb'_append_eq_of_le (by omega), BitVec.extractLsb'_append_eq_of_le (by omega)]
    exact BitVec.extractLsb'_append_eq_right
  have h3 : (b3 ++ b2 ++ b1 ++ b0).extractLsb' 24 8 = b3 := by
    rw [BitVec.extractLsb'_append_eq_of_le (by omega), BitVec.extractLsb'_append_eq_of_le (by omega)]
    exact BitVec.extractLsb'_append_eq_left
  rw [bytesOfWord, wordOfBytes, h0, h1, h2, h3]

/-- A word is known by its bytes. -/
theorem bytesOfWord_injective : Function.Injective bytesOfWord := by
  intro x y h
  simp only [bytesOfWord, List.cons.injEq, and_true] at h
  obtain ⟨h0, h1, h2, h3⟩ := h
  rw [← wordOfBytes_extract x, h0, h1, h2, h3, wordOfBytes_extract]

theorem bytesOfWord_bswap (x : Word) : bytesOfWord (bswap x) = (bytesOfWord x).reverse :=
  bytesOfWord_wordOfBytes _ _ _ _

/-- Settles O33: the bytes reversed twice are the bytes. -/
theorem bswapReversesTheBytes : Obligations.BswapReversesTheBytes := fun x =>
  ⟨bytesOfWord_bswap x, bytesOfWord_injective <| by rw [bytesOfWord_bswap, bytesOfWord_bswap, List.reverse_reverse]⟩

/-! ### The seed hash -/

/-- The last byte makes the last step. -/
theorem hashFrom_concat (i : Nat) (seed : Word) (n : List Byte) (c : Byte) :
    hashFrom i seed (n ++ [c]) = hashStep (i + n.length) (hashFrom i seed n) c := by
  induction n generalizing i seed with
  | nil => rfl
  | cons b n ih =>
    show hashFrom (i + 1) (hashStep i seed b) (n ++ [c]) = _
    rw [ih, List.length_cons, Nat.add_right_comm, ← Nat.add_assoc]
    rfl

theorem seedFromBytes_concat (n : List Byte) (c : Byte) :
    seedFromBytes (n ++ [c]) = seedFromBytes n * (c.setWidth 32 >>> (n.length % 4)) + c.setWidth 32 := by
  rw [seedFromBytes, hashFrom_concat, Nat.zero_add, hashStep, Nat.and_two_pow_sub_one_eq_mod n.length 2]
  rfl

/-- Widening a byte shifts nothing in. -/
theorem setWidth_shiftRight (c : Byte) (k : Nat) : c.setWidth 32 >>> k = (c >>> k).setWidth 32 :=
  BitVec.eq_of_toNat_eq <| by
    rw [BitVec.toNat_ushiftRight, BitVec.toNat_setWidth_of_le (by omega), BitVec.toNat_setWidth_of_le (by omega),
      BitVec.toNat_ushiftRight]

/-- Settles O30: a byte whose multiplier is 0 multiplies the seed before it by 0. -/
theorem seedHashFollowsItsRecurrence : Obligations.SeedHashFollowsItsRecurrence := by
  refine ⟨rfl, fun n c => ⟨seedFromBytes_concat n c, fun h => ?_⟩⟩
  have hmul : c.setWidth 32 >>> (n.length % 4) = (0 : Word) := by rw [setWidth_shiftRight, h]; rfl
  rw [seedFromBytes_concat, hmul, mul_zero, zero_add]

/-! ### Uppercasing -/

/-- The letters of R131 by number. -/
theorem upperByte_eq (c : Byte) : upperByte c = if 0x61 ≤ c.toNat ∧ c.toNat ≤ 0x7A then c - 0x20#8 else c := rfl

theorem upperByte_of_not_letter {c : Byte} (h : ¬ (0x61 ≤ c.toNat ∧ c.toNat ≤ 0x7A)) : upperByte c = c := if_neg h

theorem toNat_upperByte_of_letter {c : Byte} (h : 0x61 ≤ c.toNat ∧ c.toNat ≤ 0x7A) :
    (upperByte c).toNat = c.toNat - 0x20 := by
  obtain ⟨hlo, hhi⟩ := h
  rw [upperByte_eq, if_pos ⟨hlo, hhi⟩]
  exact BitVec.toNat_sub_of_le (show 0x20 ≤ c.toNat by omega)

/-- A letter becomes a byte of 0x41 to 0x5A: no letter of R131, and no '.'. -/
theorem upperByte_not_letter (c : Byte) : ¬ (0x61 ≤ (upperByte c).toNat ∧ (upperByte c).toNat ≤ 0x7A) := by
  by_cases h : 0x61 ≤ c.toNat ∧ c.toNat ≤ 0x7A
  · rw [toNat_upperByte_of_letter h]
    omega
  · rwa [upperByte_of_not_letter h]

theorem upperByte_eq_dot_iff (c : Byte) : upperByte c = 0x2E ↔ c = 0x2E := by
  by_cases h : 0x61 ≤ c.toNat ∧ c.toNat ≤ 0x7A
  · have hup := toNat_upperByte_of_letter h
    constructor
    · intro he
      rw [he] at hup
      change 0x2E = _ at hup
      omega
    · rintro rfl
      exact absurd h (by decide)
  · rw [upperByte_of_not_letter h]

theorem upper_upper (p : List Byte) : upper (upper p) = upper p := by
  rw [upper, upper, List.map_map]
  exact List.map_congr_left fun c _ => upperByte_of_not_letter (upperByte_not_letter c)

/-- Settles O31: an uppercased byte is no letter, so the second pass leaves it. -/
theorem uppercasingMovesOnlyTheLetters : Obligations.UppercasingMovesOnlyTheLetters :=
  ⟨fun c => ⟨toNat_upperByte_of_letter, upperByte_of_not_letter, upperByte_eq_dot_iff c⟩,
    fun p => ⟨List.length_map _, upper_upper p⟩⟩

/-! ### The path segment and the extension -/

/-- Read from the end, a name without a byte meets only other bytes. -/
theorem ne_of_mem_reverse {x : Byte} {n : List Byte} (h : x ∉ n) : ∀ c ∈ n.reverse, c ≠ x :=
  fun _ hc heq => h (heq ▸ List.mem_reverse.1 hc)

theorem pathSegment_of_not_mem {q : List Byte} (h : (0x2F : Byte) ∉ q) : pathSegment [0x2F] q = q := by
  rw [pathSegment, List.takeWhile_eq_self_iff.2 (by simpa using ne_of_mem_reverse h), List.reverse_reverse]

/-- The segment starts after the last '/' (R130). -/
theorem pathSegment_append {p q : List Byte} (h : (0x2F : Byte) ∉ q) : pathSegment [0x2F] (p ++ [0x2F] ++ q) = q := by
  have hq : ∀ c ∈ q.reverse, (!([0x2F] : List Byte).contains c) = true := by
    simpa using ne_of_mem_reverse h
  rw [pathSegment, List.reverse_append, List.takeWhile_append_of_pos hq]
  simp

theorem stripExt_of_not_mem {e : List Byte} (h : dotByte ∉ e) : stripExt e = e :=
  if_neg (by simpa using h)

/-- The extension starts at the last '.' (R132). -/
theorem stripExt_append {u e : List Byte} (h : dotByte ∉ e) : stripExt (u ++ [dotByte] ++ e) = u := by
  have he : ∀ c ∈ e.reverse, (c != dotByte) = true := by simpa using ne_of_mem_reverse h
  rw [stripExt, if_pos (by simp), List.reverse_append, List.dropWhile_append_of_pos he]
  simp

/-- A name with a '.' has a last one. -/
theorem exists_last_dot {u : List Byte} (h : dotByte ∈ u) : ∃ v e, u = v ++ [dotByte] ++ e ∧ dotByte ∉ e := by
  obtain ⟨e, v, hrev, he⟩ := List.eq_append_cons_of_mem (List.mem_reverse.2 h)
  refine ⟨v.reverse, e.reverse, ?_, by simpa using he⟩
  rw [← List.reverse_reverse u, hrev]
  simp

theorem dotByte_mem_upper (u : List Byte) : dotByte ∈ upper u ↔ dotByte ∈ u := by
  simp only [upper, List.mem_map, dotByte, upperByte_eq_dot_iff, exists_eq_right]

/-- Uppercasing cuts at the same '.' (R132). -/
theorem stripExt_upper (u : List Byte) : stripExt (upper u) = upper (stripExt u) := by
  by_cases h : dotByte ∈ u
  · obtain ⟨v, e, rfl, he⟩ := exists_last_dot h
    have hup : upper (v ++ [dotByte] ++ e) = upper v ++ [dotByte] ++ upper e := by
      simp only [upper, List.map_append]
      rfl
    rw [hup, stripExt_append he, stripExt_append (mt (dotByte_mem_upper e).1 he)]
  · rw [stripExt_of_not_mem h, stripExt_of_not_mem (mt (dotByte_mem_upper u).1 h)]

/-- Settles O32: both cuts read the name from its end, and uppercasing keeps where the last '.' is. -/
theorem normalizationCutsAtTheLastSlashAndDot : Obligations.NormalizationCutsAtTheLastSlashAndDot :=
  ⟨fun _ _ h => ⟨pathSegment_append h, pathSegment_of_not_mem h⟩,
    fun _ _ h => ⟨stripExt_append h, stripExt_of_not_mem h⟩, stripExt_upper⟩

/-! ### The name commands -/

/-- Settles O29: each effect is the one write to SEED. -/
theorem nameCommandsWriteOnlySeed : Obligations.NameCommandsWriteOnlySeed :=
  fun _ => ⟨fun h => exec_completes h, fun h => exec_completes h⟩

/-! ### The draws of a generator just seeded -/

theorem toNat_cursor {k : Nat} (hk : k < 624) : (BitVec.ofNat 10 k).toNat = k := by
  rw [BitVec.toNat_ofNat]
  exact Nat.mod_eq_of_lt (hk.trans (by omega))

theorem cursor_ne_zero {k : Nat} (hpos : 0 < k) (hk : k < 624) : BitVec.ofNat 10 k ≠ 0#10 := fun h => by
  have hzero : k = 0 := (toNat_cursor hk).symm.trans (congrArg BitVec.toNat h)
  omega

/-- The first draw twists (R114); the draws after it, until the cursor comes round, move the cursor only. -/
theorem iterate_drawNext_of_zero {s : State} (h : s.mti = 0#10) {k : Nat} (hpos : 0 < k) (hk : k < 624) :
    State.drawNext^[k] s = { s.twistIfDue with mti := BitVec.ofNat 10 k } := by
  induction k, hpos using Nat.le_induction with
  | base =>
    show s.drawNext = _
    rw [State.drawNext, h]
    rfl
  | succ k hpos ih =>
    have hlt : k < 624 := by omega
    rw [Function.iterate_succ_apply', ih hlt, State.drawNext, twistIfDue_of_ne (cursor_ne_zero hpos hlt),
      toNat_cursor hlt, Nat.mod_eq_of_lt (show k + 1 < mtWords from hk)]

/-- Draw number `k` gives word `k` of the once-twisted MT, tempered. -/
theorem drawWord_iterate_of_zero {s : State} (h : s.mti = 0#10) {k : Nat} (hk : k < 624) :
    (State.drawNext^[k] s).drawWord = temper (s.twistIfDue.mtWord k) := by
  rcases Nat.eq_zero_or_pos k with rfl | hpos
  · rw [Function.iterate_zero_apply, State.drawWord, h]
    rfl
  · rw [iterate_drawNext_of_zero h hpos hk, State.drawWord, twistIfDue_of_ne (cursor_ne_zero hpos hk), toNat_cursor hk]
    exact congrArg temper (mtWord_of_mem rfl rfl k)

theorem loadMT_mtSeed (s : State) (v : Word) : (s.mtSeed v).loadWords mtBase mtWords = mtInit v := by
  refine List.ext_getElem ((loadWords_length _ _ _).trans (mtInit_length v).symm) fun i hi hi' => ?_
  have hlt : i < 624 := mtInit_length v ▸ hi'
  rw [← List.getD_eq_getElem _ 0 hi, ← List.getD_eq_getElem _ 0 hi', loadMT_getD _ hlt, mtWord_mtSeed s v hlt]

/-- The first draw after a seeding finds the recurrence's words and twists them once. -/
theorem mtWord_twistIfDue_mtSeed (s : State) (v : Word) {i : Nat} (hi : i < 624) :
    (s.mtSeed v).twistIfDue.mtWord i = (twist (mtInit v)).getD i 0 := by
  rw [mtWord_twistIfDue_of_zero (mtSeed_mti s v) hi, loadMT_mtSeed]

/-! ### FILE_KEY -/

/-- The file key of a generator just seeded (R135). -/
theorem drawFileKey_of_zero {s : State} (h : s.mti = 0#10) :
    s.drawFileKey = { s.twistIfDue with
      mti := 4, fkey0 := bswap (temper (s.twistIfDue.mtWord 0)), fkey1 := bswap (temper (s.twistIfDue.mtWord 1)),
      fkey2 := bswap (temper (s.twistIfDue.mtWord 2)), fkey3 := bswap (temper (s.twistIfDue.mtWord 3)) } := by
  have hfour : s.drawNext.drawNext.drawNext.drawNext = { s.twistIfDue with mti := 4 } :=
    iterate_drawNext_of_zero h (k := 4) (by omega) (by omega)
  rw [State.drawFileKey, hfour, ← drawWord_iterate_of_zero h (k := 0) (by omega),
    ← drawWord_iterate_of_zero h (k := 1) (by omega), ← drawWord_iterate_of_zero h (k := 2) (by omega),
    ← drawWord_iterate_of_zero h (k := 3) (by omega)]
  rfl

/-- FILE_KEY from the seed on (R135): the effect once the name is hashed to `v`. -/
def State.keyFromSeed (s : State) (v : Word) : State :=
  { ({ s with seed := v }.mtSeed v).drawFileKey with prngValid := true, fkeyValid := true }

theorem fileKeyEffect_eq_keyFromSeed (p : Config.Params) (s : State) :
    fileKeyEffect p s = s.keyFromSeed (seedFromBytes (normalizeName p s.nameBytes)) := rfl

theorem mtWord_drawFileKey_of_zero {s : State} (h : s.mti = 0#10) (i : Nat) :
    s.drawFileKey.mtWord i = s.twistIfDue.mtWord i := by
  rw [drawFileKey_of_zero h]
  exact mtWord_of_mem rfl rfl i

/-- The flags that FILE_KEY sets are no part of MT. -/
theorem mtWord_setValid (s : State) (seeded keyed : Bool) (i : Nat) :
    { s with prngValid := seeded, fkeyValid := keyed }.mtWord i = s.mtWord i := mtWord_of_mem rfl rfl i

/-- MT after FILE_KEY is the seeding twisted once (R139). -/
theorem mtWord_keyFromSeed (s : State) (v : Word) {i : Nat} (hi : i < 624) :
    (s.keyFromSeed v).mtWord i = (twist (mtInit v)).getD i 0 := by
  rw [State.keyFromSeed, mtWord_setValid, mtWord_drawFileKey_of_zero (mtSeed_mti _ v), mtWord_twistIfDue_mtSeed _ v hi]

/-- FILE_KEY draws words 0 to 3 of the twisted MT, and leaves every register but SEED, the generator's and the file
key's (R139). -/
theorem keyFromSeed_eq (s : State) (v : Word) :
    s.keyFromSeed v = { s with
      mem := (s.keyFromSeed v).mem, seed := v, mti := 4, prngValid := true, fkeyValid := true,
      fkey0 := bswap (temper ((twist (mtInit v)).getD 0 0)), fkey1 := bswap (temper ((twist (mtInit v)).getD 1 0)),
      fkey2 := bswap (temper ((twist (mtInit v)).getD 2 0)),
      fkey3 := bswap (temper ((twist (mtInit v)).getD 3 0)) } := by
  have hword : ∀ i < 624, ({ s with seed := v }.mtSeed v).twistIfDue.mtWord i = (twist (mtInit v)).getD i 0 :=
    fun i hi => mtWord_twistIfDue_mtSeed { s with seed := v } v hi
  rw [State.keyFromSeed, drawFileKey_of_zero (mtSeed_mti _ v), hword 0 (by omega), hword 1 (by omega),
    hword 2 (by omega), hword 3 (by omega), twistIfDue_of_zero (mtSeed_mti _ v)]
  generalize twist _ = ws, twist _ = vs
  rfl

theorem mtWord_retire (s : State) (i : Nat) : s.retire.mtWord i = s.mtWord i :=
  mtWord_of_mem (retire_mem s) (retire_epoch s) i

theorem SameOutside.retire {s t : State} {lo n : Nat} (h : SameOutside s t lo n) : SameOutside s t.retire lo n :=
  h.of_mem (retire_mem t) (retire_epoch t)

/-- Settles O34: MT holds the seeding twisted once, and the four draws have read its first words. -/
theorem fileKeyIsFourSwappedDraws : Obligations.FileKeyIsFourSwappedDraws := by
  intro s hs
  have hframe := (sameOutside_fileKeyEffect Config.thisHardware s).retire
  rw [fileKeyEffect_eq_keyFromSeed] at hframe
  generalize hv : seedFromBytes (normalizeName Config.thisHardware s.nameBytes) = v at hframe ⊢
  have hexec : exec .fileKey s = .next (s.keyFromSeed v).retire := by
    rw [exec_completes hs, ← hv, ← fileKeyEffect_eq_keyFromSeed]
    rfl
  have hmt : ∀ i < 624, (s.keyFromSeed v).retire.mtWord i = (twist (mtInit v)).getD i 0 := fun i hi => by
    rw [mtWord_retire, mtWord_keyFromSeed s v hi]
  have hregs := congrArg State.retire (keyFromSeed_eq s v)
  have hseed : (s.keyFromSeed v).retire.seed = v := congrArg State.seed hregs
  refine ⟨(s.keyFromSeed v).retire, hexec, ?_, fun i hi => by rw [hmt i hi, hseed], hframe⟩
  rw [hmt 0 (by omega), hmt 1 (by omega), hmt 2 (by omega), hmt 3 (by omega)]
  exact hregs

end Sys2Proof.Machine

/-! SUPPORT. The round functions of spec/42_feistel.md: both are the same sixteen Feistel rounds under one key sequence
and its reverse, so each undoes the other; and what BLOCK_ENC, BLOCK_DEC and SFUNC leave. -/

namespace Sys2Proof.Machine

/-! ### The substitution function -/

/-- Shifting and masking a byte out of a word takes its bits. -/
theorem toNat_shiftRight_and_byte (x : Word) (k : Nat) : ((x >>> k) &&& 0xFF#32).toNat = (x.extractLsb' k 8).toNat := by
  rw [BitVec.toNat_and, BitVec.toNat_ushiftRight, BitVec.extractLsb'_toNat]
  exact Nat.and_two_pow_sub_one_eq_mod _ 8

/-- `S` by the bytes of its argument (R150). -/
theorem sBox_eq (k2 : List Word) (x : Word) :
    sBox k2 x =
      k2.getD ((x.extractLsb' 0 8).toNat + 0x300) 0 +
        (k2.getD ((x.extractLsb' 8 8).toNat + 0x200) 0 ^^^ k2.getD ((x.extractLsb' 16 8).toNat + 0x100) 0) +
        k2.getD (x.extractLsb' 24 8).toNat 0 := by
  simp only [← toNat_shiftRight_and_byte]
  rfl

/-- `S` reads the first 1024 words of key2 (R150, R158). -/
theorem sBox_eq_of_getD {k2 : List Word} {f : Nat → Word} (h : ∀ j < 1024, k2.getD j 0 = f j) (x : Word) :
    sBox k2 x =
      f ((x.extractLsb' 0 8).toNat + 0x300) +
        (f ((x.extractLsb' 8 8).toNat + 0x200) ^^^ f ((x.extractLsb' 16 8).toNat + 0x100)) +
        f (x.extractLsb' 24 8).toNat := by
  have hbyte : ∀ k, (x.extractLsb' k 8).toNat < 256 := fun k => (x.extractLsb' k 8).isLt
  have h0 := hbyte 0
  have h8 := hbyte 8
  have h16 := hbyte 16
  have h24 := hbyte 24
  rw [sBox_eq, h _ (by omega), h _ (by omega), h _ (by omega), h _ (by omega)]

/-! ### Feistel rounds -/

/-- One Feistel round on the two halves (R156): L takes the key, Rw takes S of it, and they swap. -/
def feistelRound (S : Word → Word) (key : Word) (h : Word × Word) : Word × Word :=
  (h.2 ^^^ S (h.1 ^^^ key), h.1 ^^^ key)

/-- The first `n` rounds under the keys `key 0`, `key 1`, and so on. -/
def feistelRounds (S : Word → Word) (key : Nat → Word) (n : Nat) (p : Word × Word) : Word × Word :=
  (List.range n).foldl (fun h r => feistelRound S (key r) h) p

/-- The last swap with the final whitening (R156). -/
def whiten (keyA keyB : Word) (h : Word × Word) : Word × Word := (h.2 ^^^ keyA, h.1 ^^^ keyB)

/-- `n` rounds, and the final whitening with the two keys after theirs. -/
def feistelNetwork (S : Word → Word) (key : Nat → Word) (n : Nat) (p : Word × Word) : Word × Word :=
  whiten (key (n + 1)) (key n) (feistelRounds S key n p)

theorem feistelRounds_succ (S : Word → Word) (key : Nat → Word) (n : Nat) (p : Word × Word) :
    feistelRounds S key (n + 1) p = feistelRound S (key n) (feistelRounds S key n p) := by
  simp [feistelRounds, List.range_succ]

theorem xor_right_comm (x y z : Word) : x ^^^ y ^^^ z = x ^^^ z ^^^ y := by
  rw [BitVec.xor_assoc, BitVec.xor_comm y z, ← BitVec.xor_assoc]

/-- Whitening twice with the same keys gives the halves back. -/
theorem whiten_whiten (keyA keyB : Word) (h : Word × Word) : whiten keyA keyB (whiten keyB keyA h) = h := by
  simp [whiten]

/-- A round under the key of the whitening takes one round back, and moves the whitening one key down. -/
theorem feistelRound_whiten_feistelRound (S : Word → Word) (keyA keyB key : Word) (h : Word × Word) :
    feistelRound S keyA (whiten keyA keyB (feistelRound S key h)) = whiten keyB key h := by
  simp only [feistelRound, whiten, xor_right_comm _ _ keyB, xor_cancel_right]

/-- After `i` rounds under the reversed keys the last `i` rounds are taken back. -/
theorem feistelRounds_reversed (S : Word → Word) (key : Nat → Word) (p : Word × Word) {n i : Nat} (hi : i ≤ n) :
    feistelRounds S (fun r => key (n + 1 - r)) i (feistelNetwork S key n p) =
      whiten (key (n - i + 1)) (key (n - i)) (feistelRounds S key (n - i) p) := by
  induction i with
  | zero => rfl
  | succ i ih =>
    obtain ⟨m, rfl⟩ : ∃ m, n = m + i + 1 := ⟨n - (i + 1), by omega⟩
    rw [feistelRounds_succ, ih (by omega), show m + i + 1 - i = m + 1 by omega, show m + i + 1 - (i + 1) = m by omega,
      show m + i + 1 + 1 - i = m + 1 + 1 by omega, feistelRounds_succ, feistelRound_whiten_feistelRound]

/-- The network under the reversed keys undoes the network (R156). -/
theorem feistelNetwork_reversed (S : Word → Word) (key : Nat → Word) (n : Nat) (p : Word × Word) :
    feistelNetwork S (fun r => key (n + 1 - r)) n (feistelNetwork S key n p) = p := by
  have hrounds := feistelRounds_reversed S key p (le_refl n)
  rw [Nat.sub_self] at hrounds
  rw [feistelNetwork, hrounds, Nat.sub_self, show n + 1 - n = 0 + 1 by omega]
  exact whiten_whiten _ _ p

/-! ### The round functions as networks -/

/-- A pass of the forward loop is four rounds, its pair kept with the halves the other way round (R151). -/
theorem forwardPass_eq_rounds (k1 k2 : List Word) (h : Word × Word) (rb : Nat) :
    forwardPass k1 k2 h.swap rb =
      ([rb, rb + 1, rb + 2, rb + 3].foldl (fun h r => feistelRound (sBox k2) (k1.getD r 0) h) h).swap := by
  simp only [forwardPass, List.foldl_cons, List.foldl_nil, feistelRound, Prod.swap,
    xor_right_comm _ (sBox k2 _) (k1.getD _ 0)]


/-- The forward function runs the network under K1[0], K1[1], ..., K1[17] (R151, R156). -/
theorem forward_eq_network (k1 k2 : List Word) (p : Word × Word) :
    forward k1 k2 p = feistelNetwork (sBox k2) (fun r => k1.getD r 0) 16 p := by
  have hloop : [0, 4, 8, 12].foldl (forwardPass k1 k2) p.swap =
      (feistelRounds (sBox k2) (fun r => k1.getD r 0) 16 p).swap := by
    simp only [List.foldl_cons, List.foldl_nil, forwardPass_eq_rounds]
    rfl
  exact congrArg (fun v : Word × Word => (v.1 ^^^ k1.getD 17 0, v.2 ^^^ k1.getD 16 0)) hloop

/-- The reverse function runs the network under K1[17], K1[16], ..., K1[0] (R152, R156). -/
theorem reverse_eq_network (k1 k2 : List Word) (p : Word × Word) :
    reverse k1 k2 p = feistelNetwork (sBox k2) (fun r => k1.getD (17 - r) 0) 16 p := rfl

theorem reverse_forward (k1 k2 : List Word) (p : Word × Word) : reverse k1 k2 (forward k1 k2 p) = p := by
  rw [reverse_eq_network, forward_eq_network]
  exact feistelNetwork_reversed (sBox k2) (fun r => k1.getD r 0) 16 p

/-- The keys reversed twice are the keys, as far as the network reads them. -/
theorem forward_reverse (k1 k2 : List Word) (p : Word × Word) : forward k1 k2 (reverse k1 k2 p) = p := by
  rw [reverse_eq_network, forward_eq_network]
  exact feistelNetwork_reversed (sBox k2) (fun r => k1.getD (17 - r) 0) 16 p

/-- Settles O42: both round functions are the network of sixteen rounds, with S by its bytes. -/
theorem roundFunctionsAreInverse : Obligations.RoundFunctionsAreInverse := by
  intro k1 k2 p S halves f r
  have hS : S = sBox k2 := funext fun x => (sBox_eq k2 x).symm
  have hhalves : ∀ key, halves key = feistelRounds (sBox k2) key 16 p := fun key => by
    rw [← hS]
    rfl
  refine ⟨?_, ?_, reverse_forward k1 k2 p, forward_reverse k1 k2 p⟩
  · rw [forward_eq_network, feistelNetwork, ← hhalves]
    rfl
  · rw [reverse_eq_network, feistelNetwork, ← hhalves]
    rfl

/-! ### The keys of the state -/

theorem roundKeys_getD (s : State) {j : Nat} (h : j < 18) : s.roundKeys.getD j 0 = s.k1Word j :=
  loadWords_getD s k1Base roundKeyWords j 0 h

theorem sBoxes_getD (s : State) {j : Nat} (h : j < 1024) : s.sBoxes.getD j 0 = s.k2Word j :=
  loadWords_getD s k2Base sBoxWords j 0 h

theorem sBox_sBoxes (s : State) (x : Word) :
    sBox s.sBoxes x =
      s.k2Word ((x.extractLsb' 0 8).toNat + 0x300) +
        (s.k2Word ((x.extractLsb' 8 8).toNat + 0x200) ^^^ s.k2Word ((x.extractLsb' 16 8).toNat + 0x100)) +
        s.k2Word (x.extractLsb' 24 8).toNat :=
  sBox_eq_of_getD (fun _ h => sBoxes_getD s h) x

/-! ### The block commands -/

/-- Settles O41: the substitution function reads K2 at the four indices. -/
theorem sfuncMixesTheFourTables : Obligations.SfuncMixesTheFourTables := by
  intro s hs
  rw [exec_completes hs]
  exact congrArg (fun w => Host.Outcome.next { s with result := w }.retire) (sBox_sBoxes s s.arg0)

/-- Settles O40: over the state's keys a pass of the forward loop and a round of the reverse loop are those of the
statement. -/
theorem blockCommandsApplyTheRoundFunctions : Obligations.BlockCommandsApplyTheRoundFunctions := by
  intro s S pass round f r
  have hS : ∀ x, sBox s.sBoxes x = S x := sBox_sBoxes s
  have hpass : ∀ v rb, rb + 3 < 18 → forwardPass s.roundKeys s.sBoxes v rb = pass v rb := fun v rb h => by
    simp only [forwardPass, hS, roundKeys_getD s (show rb < 18 by omega), roundKeys_getD s (show rb + 1 < 18 by omega),
      roundKeys_getD s (show rb + 2 < 18 by omega), roundKeys_getD s h, pass]
  have hround : reverseRound s.roundKeys s.sBoxes = round := by
    funext v i
    simp only [reverseRound, hS, roundKeys_getD s (show 17 - i < 18 by omega), round]
  have hf : forward s.roundKeys s.sBoxes (s.a, s.b) = (f.1 ^^^ s.k1Word 17, f.2 ^^^ s.k1Word 16) := by
    simp only [forward, List.foldl_cons, List.foldl_nil, hpass _ 0 (by omega), hpass _ 4 (by omega),
      hpass _ 8 (by omega), hpass _ 12 (by omega), roundKeys_getD s (show 17 < 18 by omega),
      roundKeys_getD s (show 16 < 18 by omega), f]
  have hr : reverse s.roundKeys s.sBoxes (s.a, s.b) = (r.2 ^^^ s.k1Word 0, r.1 ^^^ s.k1Word 1) := by
    rw [reverse, hround, roundKeys_getD s (by omega), roundKeys_getD s (by omega)]
  refine ⟨fun hs => ?_, fun hs => ?_⟩
  · rw [exec_completes hs]
    exact congrArg (fun p => Host.Outcome.next (s.setPair p).retire) hf
  · rw [exec_completes hs]
    exact congrArg (fun p => Host.Outcome.next (s.setPair p).retire) hr

/-- Settles O43: BLOCK_DEC finds the keys that BLOCK_ENC found. -/
theorem blockDecUndoesBlockEnc : Obligations.BlockDecUndoesBlockEnc := by
  intro s hs
  have hkeys : ((blockEncEffect s).retire.accept .blockDec).roundKeys = s.roundKeys := rfl
  have hboxes : ((blockEncEffect s).retire.accept .blockDec).sBoxes = s.sBoxes := rfl
  refine ⟨(blockEncEffect s).retire, exec_completes hs, ?_⟩
  rw [exec_completes (accept_inflight _ _)]
  show Host.Outcome.next (blockDecEffect _).retire = _
  rw [blockDecEffect, hkeys, hboxes]
  exact congrArg (fun p => Host.Outcome.next (s.setPair p).retire) (reverse_forward s.roundKeys s.sBoxes (s.a, s.b))

end Sys2Proof.Machine

/-! SUPPORT. The key commands of spec/42_feistel.md: KEY_COPY, KEY_XOR twice, the descrambling chain as two fills of an
array in place, and FILE_SETUP as the four commands in turn. -/

namespace Sys2Proof.Machine

/-! ### Storing K1 and then K2 -/

/-- K1 depends on the arrays and the count of resets only. -/
theorem k1Word_of_mem {s t : State} (hm : t.mem = s.mem) (he : t.epoch = s.epoch) (i : Nat) : t.k1Word i = s.k1Word i :=
  word_congr fun _ _ => byte_congr hm he _

/-- K2 depends on the arrays and the count of resets only. -/
theorem k2Word_of_mem {s t : State} (hm : t.mem = s.mem) (he : t.epoch = s.epoch) (i : Nat) : t.k2Word i = s.k2Word i :=
  word_congr fun _ _ => byte_congr hm he _

/-- The list that K1 was stored from is read back. -/
theorem k1Word_storeK1_getD (s : State) {ws : List Word} {i : Nat} (hi : i < 1024) (hl : i < ws.length) :
    (s.storeK1 Config.thisHardware ws).k1Word i = ws.getD i 0 := by
  rw [k1Word_storeK1 s ws i hi hl, List.getD_eq_getElem _ _ hl]

/-- K1 and K2 stored from two lists, one after the other. -/
def State.storeKeys (s : State) (ws vs : List Word) : State :=
  (s.storeK1 Config.thisHardware ws).storeK2 Config.thisHardware vs

section StoreKeys

variable (s : State) {ws vs : List Word}

theorem k1Word_storeKeys {i : Nat} (hi : i < 1024) (hl : i < ws.length) : (s.storeKeys ws vs).k1Word i = ws.getD i 0 :=
  ((sameOutside_storeK2 _ vs).k1Word_eq (by omega) hi).trans (k1Word_storeK1_getD s hi hl)

theorem k2Word_storeKeys {i : Nat} (hi : i < 4096) (hl : i < vs.length) :
    (s.storeKeys ws vs).k2Word i = vs.getD i 0 := by
  rw [State.storeKeys, k2Word_storeK2 _ vs i hi hl, List.getD_eq_getElem _ _ hl]

/-- Nothing beyond the words stored is written. -/
theorem byte_storeKeys {x : Nat} (h1 : x < 0x08000 ∨ 0x08000 + 4 * ws.length ≤ x)
    (h2 : x < 0x20000 ∨ 0x20000 + 4 * vs.length ≤ x) : (s.storeKeys ws vs).byte x = s.byte x :=
  (byte_storeK2_outside _ vs x (by omega)).trans (byte_storeK1_outside s ws x (by omega))

end StoreKeys

/-! ### KEY_COPY -/

/-- KEY_COPY leaves every register but the latched lengths, the two flags and the stream's (R159, R191). -/
theorem keyCopyEffect_eq (p : Config.Params) (s : State) :
    keyCopyEffect p s = { s with
      mem := (keyCopyEffect p s).mem, k1CurLen := s.key1Len, k2CurLen := s.key2Len, keysCopied := true,
      keysReady := false, pairsLeft := 0, streamActive := false, emit := false } := rfl

theorem keyCopyEffect_retire_mem (s : State) :
    (keyCopyEffect Config.thisHardware s).retire.mem =
      (s.storeKeys (s.loadWords ks1Base s.key1Len.toNat) (s.loadWords ks2Base s.key2Len.toNat)).mem := rfl

/-- Settles O35: the key sources are loaded and stored whole, and the store of K2 does not reach K1. -/
theorem keyCopyCopiesTheSources : Obligations.KeyCopyCopiesTheSources := by
  rintro s hs ⟨⟨-, -, h1⟩, -, -, h2⟩
  have hmem := keyCopyEffect_retire_mem s
  refine ⟨(keyCopyEffect Config.thisHardware s).retire, exec_completes hs,
    congrArg State.retire (keyCopyEffect_eq _ s), fun i hi => ?_, fun i hi => ?_, fun x hx1 hx2 => ?_⟩
  · rw [k1Word_of_mem hmem rfl, k1Word_storeKeys s (by omega) (by simpa using hi), loadWords_getD _ _ _ _ _ hi]
    rfl
  · rw [k2Word_of_mem hmem rfl, k2Word_storeKeys s (by omega) (by simpa using hi), loadWords_getD _ _ _ _ _ hi]
    rfl
  · rw [byte_congr hmem rfl, byte_storeKeys s (by simpa using hx1) (by simpa using hx2)]

/-! ### KEY_XOR -/

/-- The file key, cycled (R153). -/
theorem fkey_eq_getD (s : State) (i : Nat) : s.fkey i = [s.fkey0, s.fkey1, s.fkey2, s.fkey3].getD (i % 4) 0 := by
  have hlt : i % 4 < 4 := Nat.mod_lt _ (by omega)
  unfold State.fkey
  generalize i % 4 = r at hlt ⊢
  interval_cases r <;> rfl

theorem xorFileKey_getD (s : State) {ws : List Word} {i : Nat} (hi : i < ws.length) :
    (xorFileKey s ws).getD i 0 = ws.getD i 0 ^^^ s.fkey i := by
  simp [xorFileKey, hi]

/-- KEY_XOR leaves every register but KEYS_READY and the stream's (R160, R191). -/
theorem keyXorEffect_eq (p : Config.Params) (s : State) :
    keyXorEffect p s = { s with
      mem := (keyXorEffect p s).mem, keysReady := false, pairsLeft := 0, streamActive := false, emit := false } := rfl

theorem keyXorEffect_mem (s : State) :
    (keyXorEffect Config.thisHardware s).mem =
      (s.storeK1 Config.thisHardware (xorFileKey s (s.loadWords k1Base s.k1CurLen.toNat))).mem := rfl

/-- The file key is not changed by KEY_XOR. -/
theorem keyXorEffect_fkey (s : State) (i : Nat) : (keyXorEffect Config.thisHardware s).fkey i = s.fkey i := by
  simp [fkey_eq_getD]

/-- KEY_XOR writes no byte beyond the latched length (R160). -/
theorem sameOutside_keyXorEffect_latched (s : State) :
    SameOutside s (keyXorEffect Config.thisHardware s) 0x08000 (4 * s.k1CurLen.toNat) := fun x hx =>
  (byte_congr (keyXorEffect_mem s) (by simp) x).trans (byte_storeK1_outside s _ x (by simp; omega))

/-- A word of K1 after KEY_XOR: xored with the file key over the latched length (R153). -/
theorem k1Word_keyXorEffect (s : State) {i : Nat} (hi : i < 1024) :
    (keyXorEffect Config.thisHardware s).k1Word i =
      if i < s.k1CurLen.toNat then s.k1Word i ^^^ s.fkey i else s.k1Word i := by
  split
  · next h =>
    have hload : (s.loadWords k1Base s.k1CurLen.toNat).getD i 0 = s.k1Word i := loadWords_getD s k1Base _ i 0 h
    rw [k1Word_of_mem (keyXorEffect_mem s) (by simp), k1Word_storeK1_getD s hi (by simpa using h),
      xorFileKey_getD s (by simpa using h), hload]
  · next h =>
    exact word_congr fun k hk => sameOutside_keyXorEffect_latched s _ (by simp only [elementAddr, k1Base]; omega)

/-- Settles O36: the latched words are loaded, xored and stored whole. -/
theorem keyXorCyclesTheFileKey : Obligations.KeyXorCyclesTheFileKey := by
  intro s hs hlen
  refine ⟨(keyXorEffect Config.thisHardware s).retire, exec_completes hs, congrArg State.retire (keyXorEffect_eq _ s),
    fun i hi => ?_, (sameOutside_keyXorEffect_latched s).retire⟩
  rw [k1Word_of_mem (retire_mem _) (retire_epoch _), k1Word_keyXorEffect s (by omega), if_pos hi, fkey_eq_getD]

/-- A byte of the arrays is a byte of the word it stands in. -/
theorem byte_eq_getD_word (s : State) (a : Nat) {k : Nat} (hk : k < 4) :
    s.byte (a + k) = (bytesOfWord (s.word a)).getD k 0 := by
  rw [word_eq, bytesOfWord_wordOfBytes]
  interval_cases k <;> rfl

/-- Equal words of K1 are equal bytes of its window. -/
theorem byte_eq_of_k1Word_eq {s t : State} (h : ∀ i < 1024, t.k1Word i = s.k1Word i) {x : Nat}
    (hx : 0x08000 ≤ x ∧ x < 0x09000) : t.byte x = s.byte x := by
  obtain ⟨q, k, hq, hk, rfl⟩ : ∃ q k, q < 1024 ∧ k < 4 ∧ x = 0x08000 + 4 * q + k :=
    ⟨(x - 0x08000) / 4, (x - 0x08000) % 4, by omega, by omega, by omega⟩
  have hword : t.word (0x08000 + 4 * q) = s.word (0x08000 + 4 * q) := h q hq
  rw [byte_eq_getD_word t _ hk, byte_eq_getD_word s _ hk, hword]

/-- KEY_XOR on what it left gives the arrays back (R160). -/
theorem byte_keyXorEffect_keyXorEffect (s : State) (x : Nat) :
    (keyXorEffect Config.thisHardware (keyXorEffect Config.thisHardware s)).byte x = s.byte x := by
  by_cases hx : 0x08000 ≤ x ∧ x < 0x09000
  · refine byte_eq_of_k1Word_eq (fun i hi => ?_) hx
    rw [k1Word_keyXorEffect _ hi, k1Word_keyXorEffect s hi, keyXorEffect_k1CurLen, keyXorEffect_fkey]
    split
    · exact xor_cancel_right _ _
    · rfl
  · exact ((sameOutside_keyXorEffect s).trans (sameOutside_keyXorEffect _)) x (by omega)

/-- Settles O37: the second KEY_XOR finds the file key and the length that the first found. -/
theorem keyXorTwiceRestoresTheKeys : Obligations.KeyXorTwiceRestoresTheKeys := by
  intro s hs
  refine ⟨(keyXorEffect Config.thisHardware s).retire, _, exec_completes hs, exec_completes (accept_inflight _ _),
    fun x => ?_⟩
  exact byte_keyXorEffect_keyXorEffect s x

end Sys2Proof.Machine

/-! SUPPORT. The descrambling chain of spec/42_feistel.md R154 and R155: both of its loops fill an array in place with
the pairs of a running function, so the recurrence is proved once; and what DESCRAMBLE leaves. -/

namespace Sys2Proof.Machine

/-! ### Filling an array in place -/

section Fill

/-- One call of a loop of the chain: the next pair, from the words as they stand and the pair before it, becomes the
running pair and takes words 2n and 2n+1. -/
def fillStep (F : List Word → Word × Word → Word × Word) (c : (Word × Word) × List Word) (n : Nat) :
    (Word × Word) × List Word :=
  (F c.2 c.1, (c.2.set (2 * n) (F c.2 c.1).1).set (2 * n + 1) (F c.2 c.1).2)

/-- The first `n` calls of a loop of the chain, from the pair `p` and the words `ws`. -/
def fillTo (F : List Word → Word × Word → Word × Word) (p : Word × Word) (ws : List Word) (n : Nat) :
    (Word × Word) × List Word := (List.range n).foldl (fillStep F) (p, ws)

variable {F : List Word → Word × Word → Word × Word} {p : Word × Word} {ws : List Word} {n m : Nat}

theorem fillTo_succ : fillTo F p ws (n + 1) = fillStep F (fillTo F p ws n) n := by simp [fillTo, List.range_succ]

@[simp] theorem fillTo_length : (fillTo F p ws n).2.length = ws.length := by
  induction n with
  | zero => rfl
  | succ n ih => simpa [fillTo_succ, fillStep] using ih

theorem fillStep_getD_of_ne (c : (Word × Word) × List Word) {j : Nat} (h0 : 2 * n ≠ j) (h1 : 2 * n + 1 ≠ j) :
    (fillStep F c n).2.getD j 0 = c.2.getD j 0 := by
  simp [fillStep, List.getD, List.getElem?_set_ne h0, List.getElem?_set_ne h1]

theorem fillStep_getD_self {c : (Word × Word) × List Word} (h : 2 * n + 1 < c.2.length) :
    ((fillStep F c n).2.getD (2 * n) 0, (fillStep F c n).2.getD (2 * n + 1) 0) = F c.2 c.1 := by
  have h' : 2 * n < c.2.length := by omega
  simp [fillStep, List.getD, h, h']

/-- The loop has not reached the words from index `2n` on. -/
theorem fillTo_getD_of_le {j : Nat} (h : 2 * n ≤ j) : (fillTo F p ws n).2.getD j 0 = ws.getD j 0 := by
  induction n with
  | zero => rfl
  | succ n ih => rw [fillTo_succ, fillStep_getD_of_ne _ (by omega) (by omega), ih (by omega)]

/-- The loop does not come back to the words before index `2n`. -/
theorem fillTo_getD_of_lt {j : Nat} (hj : j < 2 * n) (hn : n ≤ m) :
    (fillTo F p ws m).2.getD j 0 = (fillTo F p ws n).2.getD j 0 := by
  induction m, hn using Nat.le_induction with
  | base => rfl
  | succ m hle ih => rw [fillTo_succ, fillStep_getD_of_ne _ (by omega) (by omega), ih]

variable {len : Nat} {new : Nat → Word} (hm : 2 * m = len) (hlen : len ≤ ws.length)
  (hnew : ∀ j < len, new j = (fillTo F p ws m).2.getD j 0)

include hm hnew

/-- Half-way the array holds its new words below index `2n`, and its old ones from there on (R155). -/
theorem fillTo_getD (hn : n ≤ m) (j : Nat) :
    (fillTo F p ws n).2.getD j 0 = if j < 2 * n then new j else ws.getD j 0 := by
  split
  · next h => rw [hnew j (by omega), fillTo_getD_of_lt h hn]
  · next h => exact fillTo_getD_of_le (by omega)

include hlen

/-- The pair that call `n` writes is the function's (R154). -/
theorem fillTo_written (hn : n < m) :
    (new (2 * n), new (2 * n + 1)) = F (fillTo F p ws n).2 (fillTo F p ws n).1 := by
  rw [hnew _ (by omega), hnew _ (by omega), fillTo_getD_of_lt (n := n + 1) (by omega) hn,
    fillTo_getD_of_lt (n := n + 1) (by omega) hn, fillTo_succ, fillStep_getD_self (by rw [fillTo_length]; omega)]

/-- The running pair is the pair written last. -/
theorem fillTo_pair (hn : n ≤ m) :
    (fillTo F p ws n).1 = if n = 0 then p else (new (2 * n - 2), new (2 * n - 1)) := by
  cases n with
  | zero => rfl
  | succ n => exact fillTo_succ ▸ (fillTo_written hm hlen hnew hn).symm

/-- The loop leaves the last pair of the array. -/
theorem fillTo_lastPair (hpos : 0 < len) : (fillTo F p ws m).1 = (new (len - 2), new (len - 1)) := by
  rw [fillTo_pair hm hlen hnew le_rfl, hm, if_neg (by omega)]

end Fill

/-! ### The chain as two fills -/

theorem foldl_fillK1 (k1 k2 : List Word) (p : Word × Word) (n : Nat) :
    (List.range n).foldl Chain.fillK1 { pair := p, k1 := k1, k2 := k2 } =
      { pair := (fillTo (forward · k2) p k1 n).1, k1 := (fillTo (forward · k2) p k1 n).2, k2 := k2 } := by
  induction n with
  | zero => rfl
  | succ n ih =>
    rw [List.range_succ, List.foldl_append, ih, fillTo_succ]
    rfl

theorem foldl_fillK2 (k1 k2 : List Word) (p : Word × Word) (n : Nat) :
    (List.range n).foldl Chain.fillK2 { pair := p, k1 := k1, k2 := k2 } =
      { pair := (fillTo (forward k1) p k2 n).1, k1 := k1, k2 := (fillTo (forward k1) p k2 n).2 } := by
  induction n with
  | zero => rfl
  | succ n ih =>
    rw [List.range_succ, List.foldl_append, ih, fillTo_succ]
    rfl

/-- K1 and the running pair after the chain's first loop. -/
def State.filledK1 (s : State) : (Word × Word) × List Word :=
  fillTo (forward · s.chainK2) (0, 0) s.chainK1 (s.k1CurLen.toNat / 2)

/-- K2 and the running pair after the chain's second loop, which goes on from the first one's pair. -/
def State.filledK2 (s : State) : (Word × Word) × List Word :=
  fillTo (forward s.filledK1.2) s.filledK1.1 s.chainK2 (s.k2CurLen.toNat / 2)

theorem descrambleChain_eq (s : State) :
    descrambleChain s.chainK1 s.chainK2 s.k1CurLen.toNat s.k2CurLen.toNat =
      { pair := s.filledK2.1, k1 := s.filledK1.2, k2 := s.filledK2.2 } := by
  rw [descrambleChain, foldl_fillK1, foldl_fillK2]
  rfl

/-! ### What the round functions read -/

theorem feistelRounds_congr {S : Word → Word} {key key' : Nat → Word} {n : Nat} (h : ∀ r < n, key r = key' r)
    (p : Word × Word) : feistelRounds S key n p = feistelRounds S key' n p :=
  List.foldl_ext _ _ _ fun _ r hr => by rw [h r (List.mem_range.1 hr)]

/-- The forward function reads 18 words of key1 and 1024 of key2 (R158). -/
theorem forward_congr {k1 k1' k2 k2' : List Word} (h1 : ∀ j < 18, k1.getD j 0 = k1'.getD j 0)
    (h2 : ∀ j < 1024, k2.getD j 0 = k2'.getD j 0) (p : Word × Word) : forward k1 k2 p = forward k1' k2' p := by
  have hS : sBox k2 = sBox k2' := funext fun x => (sBox_eq_of_getD h2 x).trans (sBox_eq k2' x).symm
  rw [forward_eq_network, forward_eq_network, hS, feistelNetwork, feistelNetwork, h1 16 (by omega), h1 17 (by omega),
    feistelRounds_congr fun r hr => h1 r (by omega)]

theorem halfOverwritten_getD (size n : Nat) (old new : Nat → Word) {j : Nat} (h : j < size) :
    (halfOverwritten size n old new).getD j 0 = if j < n then new j else old j := by
  simp [halfOverwritten, List.getD, h]

theorem roundKeysOf_getD (s : State) {j : Nat} (h : j < 18) : (roundKeysOf s).getD j 0 = s.k1Word j := by
  rw [← roundKeys_eq, roundKeys_getD s h]

theorem sBoxesOf_getD (s : State) {j : Nat} (h : j < 1024) : (sBoxesOf s).getD j 0 = s.k2Word j := by
  rw [← sBoxes_eq, sBoxes_getD s h]

theorem chainK1_getD (s : State) {j : Nat} (h : j < max 18 s.k1CurLen.toNat) : s.chainK1.getD j 0 = s.k1Word j :=
  loadWords_getD s k1Base _ j 0 h

theorem chainK2_getD (s : State) {j : Nat} (h : j < max 1024 s.k2CurLen.toNat) : s.chainK2.getD j 0 = s.k2Word j :=
  loadWords_getD s k2Base _ j 0 h

theorem le_chainK1_length (s : State) : s.k1CurLen.toNat ≤ s.chainK1.length := by simp [State.chainK1]

theorem le_chainK2_length (s : State) : s.k2CurLen.toNat ≤ s.chainK2.length := by simp [State.chainK2]

/-! ### DESCRAMBLE -/

/-- DESCRAMBLE leaves every register but A, B, KEYS_READY and the stream's (R161, R191). -/
theorem descrambleEffect_eq (s : State) :
    descrambleEffect Config.thisHardware s = { s with
      mem := (descrambleEffect Config.thisHardware s).mem, a := s.filledK2.1.1, b := s.filledK2.1.2, keysReady := true,
      pairsLeft := 0, streamActive := false, emit := false } := by
  unfold descrambleEffect
  rw [descrambleChain_eq]
  rfl

theorem descrambleEffect_mem (s : State) :
    (descrambleEffect Config.thisHardware s).mem =
      (s.storeKeys (s.filledK1.2.take s.k1CurLen.toNat) (s.filledK2.2.take s.k2CurLen.toNat)).mem := by
  unfold descrambleEffect
  rw [descrambleChain_eq]
  rfl

section LegalLengths

variable {s : State} (h : LegalLengths s.k1CurLen.toNat s.k2CurLen.toNat)

include h

/-- On legal lengths the chain's first loop walks exactly the latched words of K1. -/
theorem filledK1_length : s.filledK1.2.length = s.k1CurLen.toNat := by
  obtain ⟨⟨-, hlo, -⟩, -⟩ := h
  simpa [State.filledK1, State.chainK1, roundKeyWords] using hlo

/-- On legal lengths the chain's second loop walks exactly the latched words of K2. -/
theorem filledK2_length : s.filledK2.2.length = s.k2CurLen.toNat := by
  obtain ⟨-, -, hlo, -⟩ := h
  simpa [State.filledK2, State.chainK2, sBoxWords] using hlo

/-- The two arrays are stored as the chain leaves them. -/
theorem descrambleEffect_retire_mem :
    (descrambleEffect Config.thisHardware s).retire.mem = (s.storeKeys s.filledK1.2 s.filledK2.2).mem := by
  rw [retire_mem, descrambleEffect_mem, List.take_of_length_le (filledK1_length h).le,
    List.take_of_length_le (filledK2_length h).le]

theorem k1Word_descrambleEffect_retire {j : Nat} (hj : j < s.k1CurLen.toNat) :
    (descrambleEffect Config.thisHardware s).retire.k1Word j = s.filledK1.2.getD j 0 := by
  have hlen := filledK1_length h
  have hmem := descrambleEffect_retire_mem h
  obtain ⟨⟨-, -, hhi⟩, -⟩ := h
  rw [k1Word_of_mem hmem (by simp [State.storeKeys]), k1Word_storeKeys s (by omega) (by omega)]

theorem k2Word_descrambleEffect_retire {j : Nat} (hj : j < s.k2CurLen.toNat) :
    (descrambleEffect Config.thisHardware s).retire.k2Word j = s.filledK2.2.getD j 0 := by
  have hlen := filledK2_length h
  have hmem := descrambleEffect_retire_mem h
  obtain ⟨-, -, -, hhi⟩ := h
  rw [k2Word_of_mem hmem (by simp [State.storeKeys]), k2Word_storeKeys s (by omega) (by omega)]

theorem byte_descrambleEffect_retire {x : Nat} (h1 : x < 0x08000 ∨ 0x08000 + 4 * s.k1CurLen.toNat ≤ x)
    (h2 : x < 0x20000 ∨ 0x20000 + 4 * s.k2CurLen.toNat ≤ x) :
    (descrambleEffect Config.thisHardware s).retire.byte x = s.byte x := by
  rw [byte_congr (descrambleEffect_retire_mem h) (by simp [State.storeKeys]),
    byte_storeKeys s (by rwa [filledK1_length h]) (by rwa [filledK2_length h])]

/-- A legal length of K1 is a whole number of pairs. -/
theorem two_mul_half_k1CurLen : 2 * (s.k1CurLen.toNat / 2) = s.k1CurLen.toNat := by
  obtain ⟨⟨heven, -, -⟩, -⟩ := h
  omega

/-- A legal length of K2 is a whole number of pairs. -/
theorem two_mul_half_k2CurLen : 2 * (s.k2CurLen.toNat / 2) = s.k2CurLen.toNat := by
  obtain ⟨-, heven, -, -⟩ := h
  omega

variable {new1 new2 : Nat → Word}

/-- The chain's first loop by the words it leaves: every call reads K1 half overwritten, and the old K2 (R154, R155). -/
theorem filledK1_recurrence (hnew1 : ∀ j < s.k1CurLen.toNat, new1 j = s.filledK1.2.getD j 0) {n : Nat}
    (hn : 2 * n < s.k1CurLen.toNat) :
    (new1 (2 * n), new1 (2 * n + 1)) =
      forward (halfOverwritten 18 (2 * n) s.k1Word new1) (sBoxesOf s)
        (if n = 0 then (0, 0) else (new1 (2 * n - 2), new1 (2 * n - 1))) := by
  have hm := two_mul_half_k1CurLen h
  rw [fillTo_written hm (le_chainK1_length s) hnew1 (by omega), fillTo_pair hm (le_chainK1_length s) hnew1 (by omega)]
  refine forward_congr (fun j hj => ?_) (fun j hj => ?_) _
  · rw [fillTo_getD hm hnew1 (by omega), halfOverwritten_getD _ _ _ _ hj, chainK1_getD s (by omega)]
  · rw [chainK2_getD s (by omega), sBoxesOf_getD s hj]

/-- The first loop leaves the last pair of K1 to the second. -/
theorem filledK1_lastPair (hnew1 : ∀ j < s.k1CurLen.toNat, new1 j = s.filledK1.2.getD j 0) :
    s.filledK1.1 = (new1 (s.k1CurLen.toNat - 2), new1 (s.k1CurLen.toNat - 1)) := by
  have hm := two_mul_half_k1CurLen h
  obtain ⟨⟨-, hlo, -⟩, -⟩ := h
  exact fillTo_lastPair hm (le_chainK1_length s) hnew1 (by omega)

/-- The chain's second loop by the words it leaves: every call reads the new K1, and K2 half overwritten (R154,
R155). -/
theorem filledK2_recurrence (hnew1 : ∀ j < s.k1CurLen.toNat, new1 j = s.filledK1.2.getD j 0)
    (hnew2 : ∀ j < s.k2CurLen.toNat, new2 j = s.filledK2.2.getD j 0) {keys : List Word}
    (hkeys : ∀ j < 18, keys.getD j 0 = new1 j) {n : Nat} (hn : 2 * n < s.k2CurLen.toNat) :
    (new2 (2 * n), new2 (2 * n + 1)) =
      forward keys (halfOverwritten 1024 (2 * n) s.k2Word new2)
        (if n = 0 then (new1 (s.k1CurLen.toNat - 2), new1 (s.k1CurLen.toNat - 1))
          else (new2 (2 * n - 2), new2 (2 * n - 1))) := by
  have hm := two_mul_half_k2CurLen h
  rw [← filledK1_lastPair h hnew1, fillTo_written hm (le_chainK2_length s) hnew2 (by omega),
    fillTo_pair hm (le_chainK2_length s) hnew2 (by omega)]
  obtain ⟨⟨-, hlo, -⟩, -⟩ := h
  refine forward_congr (fun j hj => ?_) (fun j hj => ?_) _
  · rw [hkeys j hj, hnew1 j (by omega)]
  · rw [fillTo_getD hm hnew2 (by omega), halfOverwritten_getD _ _ _ _ hj, chainK2_getD s (by omega)]

/-- The second loop leaves the last pair of K2. -/
theorem filledK2_lastPair (hnew2 : ∀ j < s.k2CurLen.toNat, new2 j = s.filledK2.2.getD j 0) :
    s.filledK2.1 = (new2 (s.k2CurLen.toNat - 2), new2 (s.k2CurLen.toNat - 1)) := by
  have hm := two_mul_half_k2CurLen h
  obtain ⟨-, -, hlo, -⟩ := h
  exact fillTo_lastPair hm (le_chainK2_length s) hnew2 (by omega)

end LegalLengths

/-- Settles O38: each loop of the chain is a fill in place, which obeys the recurrence in the words it leaves. -/
theorem descrambleChainsInPlace : Obligations.DescrambleChainsInPlace := by
  intro s hs hlegal
  have hk1 : ∀ j < s.k1CurLen.toNat,
      (descrambleEffect Config.thisHardware s).retire.k1Word j = s.filledK1.2.getD j 0 := fun _ hj =>
    k1Word_descrambleEffect_retire hlegal hj
  have hk2 : ∀ j < s.k2CurLen.toNat,
      (descrambleEffect Config.thisHardware s).retire.k2Word j = s.filledK2.2.getD j 0 := fun _ hj =>
    k2Word_descrambleEffect_retire hlegal hj
  refine ⟨(descrambleEffect Config.thisHardware s).retire, exec_completes hs, ?_,
    fun n hn => filledK1_recurrence hlegal hk1 hn,
    fun n hn => filledK2_recurrence hlegal hk1 hk2 (fun j hj => roundKeysOf_getD _ hj) hn,
    fun x hx1 hx2 => byte_descrambleEffect_retire hlegal hx1 hx2⟩
  have hregs := congrArg State.retire (descrambleEffect_eq s)
  rw [filledK2_lastPair hlegal hk2] at hregs
  exact hregs

end Sys2Proof.Machine

/-! SUPPORT. Which commands an idle block accepts, and FILE_SETUP as four commands in turn (spec/42_feistel.md R162). -/

namespace Sys2Proof.Machine

/-! ### The issue checks in the spec's own terms -/

/-- The checks on the key lengths (R159). -/
theorem keyLenCheck_eq_none_iff (s : State) :
    keyLenCheck Config.thisHardware s = none ↔ LegalLengths s.key1Len.toNat s.key2Len.toNat := by
  simp only [keyLenCheck, Option.or_eq_none_iff, require_eq_none, key1LenLegal_iff, key2LenLegal_iff, LegalLengths]

/-- The check on the name operand (R136). -/
theorem nameCheck_eq_none_iff (s : State) : nameCheck Config.thisHardware s = none ↔ s.nameLen.toNat ≤ 256 := by
  rw [nameCheck, require_eq_none, nameLenLegal_iff]

/-- The check on a stream's size (R192). -/
theorem sizeOK_iff_mod_eight (n : Nat) : sizeOK n = true ↔ n % 8 = 0 := by
  simp only [sizeOK, Bool.and_eq_true, beq_iff_eq]
  omega

/-- The checks of each command are its conditions (R223 step 4). -/
theorem issueCheck_eq_none_iff (i : Instr) (s : State) :
    issueCheck Config.thisHardware i s = none ↔ IssueConditions i s := by
  cases i with
  | nop | errClear | prngSeed => exact iff_of_true rfl trivial
  | prngNext | descramble | blockEnc | blockDec | sfunc | streamPair => exact require_eq_none
  | nameSeed | nameSeedRaw | fileKey => exact nameCheck_eq_none_iff s
  | keyCopy => exact keyLenCheck_eq_none_iff s
  | keyXor => exact Option.or_eq_none_iff.trans (and_congr require_eq_none require_eq_none)
  | fileSetup =>
    exact Option.or_eq_none_iff.trans (and_congr (keyLenCheck_eq_none_iff s) (nameCheck_eq_none_iff s))
  | streamBegin =>
    exact Option.or_eq_none_iff.trans
      (and_congr require_eq_none (require_eq_none.trans (sizeOK_iff_mod_eight s.arg0.toNat)))

/-- An idle block without an error accepts a command whose conditions hold (R223 step 5). -/
theorem exec_accepts {i : Instr} {s : State} (hidle : Idle s) (herr : s.err = 0#4) (h : IssueConditions i s) :
    exec i s = .next (s.accept i) := by
  rw [exec_issues (by simp [hidle.2]), issue_accepts hidle.1 (.inl herr) ((issueCheck_eq_none_iff i s).2 h)]

theorem idle_retire (s : State) : Idle s.retire := ⟨rfl, rfl⟩

/-! ### Effects in turn -/

/-- What a completion step leaves, by the state without the command in flight: no effect looks at INFLIGHT and BUSY. -/
theorem completionEffect_retire (p : Config.Params) (i : Instr) (s : State) :
    (completionEffect p i s).retire =
      (completionEffect p i s.retire).others none false s.retire.agenda s.retire.reads s.retire.output s.retire.draws :=
  congrArg State.retire
    (completionEffect_others p s.retire s.inflight s.busy s.agenda s.reads s.output s.draws i)

/-- States that differ in INFLIGHT and BUSY only are left alike by a completion step. -/
theorem completionEffect_retire_congr (p : Config.Params) (i : Instr) {s t : State} (h : s.retire = t.retire) :
    (completionEffect p i s).retire = (completionEffect p i t).retire := by
  rw [completionEffect_retire, completionEffect_retire p i t, h]

/-- The state after a command accepted and completed. -/
def State.afterCommand (s : State) (i : Instr) : State :=
  (completionEffect Config.thisHardware i (s.accept i)).retire

theorem exec_accept (i : Instr) (s : State) : exec i (s.accept i) = .next (s.afterCommand i) :=
  exec_completes (accept_inflight s i)

@[simp] theorem retire_retire (s : State) : s.retire.retire = s.retire := rfl

/-- A command accepted and completed leaves its effect, on any state that differs in INFLIGHT and BUSY only. -/
theorem afterCommand_eq (i : Instr) {s t : State} (h : s.retire = t.retire) :
    s.afterCommand i = (completionEffect Config.thisHardware i t).retire :=
  completionEffect_retire_congr Config.thisHardware i (s := s.accept i) h

/-- FILE_SETUP's effect is the four effects in order (R162). -/
theorem completionEffect_fileSetup (p : Config.Params) (s : State) :
    completionEffect p .fileSetup s =
      completionEffect p .descramble
        (completionEffect p .keyXor (completionEffect p .fileKey (completionEffect p .keyCopy s))) := rfl

/-- The four commands in turn leave what FILE_SETUP leaves (R162). -/
theorem afterCommand_fileSetup (s : State) :
    s.afterCommand .fileSetup =
      (((s.afterCommand .keyCopy).afterCommand .fileKey).afterCommand .keyXor).afterCommand .descramble := by
  have hcopy := afterCommand_eq .keyCopy (s := s) (t := s.accept .fileSetup) rfl
  have hfileKey := afterCommand_eq .fileKey ((congrArg State.retire hcopy).trans (retire_retire _))
  have hxor := afterCommand_eq .keyXor ((congrArg State.retire hfileKey).trans (retire_retire _))
  have hdescramble := afterCommand_eq .descramble ((congrArg State.retire hxor).trans (retire_retire _))
  rw [hdescramble, ← completionEffect_fileSetup, State.afterCommand]

/-- A command accepted and completed writes the registers of its row only. -/
theorem registersKept_afterCommand (i : Instr) (s : State) : RegistersKept i s (s.afterCommand i) :=
  { registersKept_completionEffect i (s.accept i) with }

theorem idle_afterCommand (i : Instr) (s : State) : Idle (s.afterCommand i) := idle_retire _

theorem afterCommand_keyCopy_keysCopied (s : State) : (s.afterCommand .keyCopy).keysCopied = true :=
  keyCopyEffect_keysCopied Config.thisHardware (s.accept .keyCopy)

theorem afterCommand_fileKey_fkeyValid (s : State) : (s.afterCommand .fileKey).fkeyValid = true :=
  fileKeyEffect_fkeyValid Config.thisHardware (s.accept .fileKey)

/-- Settles O39: each command finds its conditions set up by the commands before it, and no effect looks at the command
in flight, so the four effects compose. -/
theorem fileSetupIsTheFourCommands : Obligations.FileSetupIsTheFourCommands := by
  intro s hidle herr ⟨hlens, hname⟩
  have hkept1 := registersKept_afterCommand .keyCopy s
  have hkept2 := registersKept_afterCommand .fileKey (s.afterCommand .keyCopy)
  have hkept3 := registersKept_afterCommand .keyXor ((s.afterCommand .keyCopy).afterCommand .fileKey)
  obtain ⟨-, hname1, -, -⟩ := hkept1.operands
  have hcopied1 := afterCommand_keyCopy_keysCopied s
  have hvalid2 := afterCommand_fileKey_fkeyValid (s.afterCommand .keyCopy)
  obtain ⟨-, -, hcopied2⟩ := hkept2.latched (by simp)
  obtain ⟨-, -, hcopied3⟩ := hkept3.latched (by simp)
  have herr1 := (hkept1.err (by simp)).trans herr
  have herr2 := (hkept2.err (by simp)).trans herr1
  have herr3 := (hkept3.err (by simp)).trans herr2
  have hcond1 : IssueConditions .fileKey (s.afterCommand .keyCopy) := (congrArg BitVec.toNat hname1).trans_le hname
  refine ⟨_, _, _, _, exec_accepts hidle herr hlens, exec_accept _ _,
    exec_accepts (idle_afterCommand _ _) herr1 hcond1, exec_accept _ _,
    exec_accepts (idle_afterCommand _ _) herr2 ⟨hcopied2.trans hcopied1, hvalid2⟩, exec_accept _ _,
    exec_accepts (idle_afterCommand _ _) herr3 (hcopied3.trans (hcopied2.trans hcopied1)), exec_accept _ _,
    exec_accepts hidle herr ⟨hlens, hname⟩, ?_⟩
  rw [exec_accept, afterCommand_fileSetup]

end Sys2Proof.Machine

/-! SUPPORT. The block-stream controller of spec/43_stream.md: the size rule, the two stream commands, and the abort of
the stream by the key commands. -/

namespace Sys2Proof.Machine

/-! ### The flags in the spec's own terms -/

/-- The skip rule with SKIP_PAIRS written out (R193). -/
theorem emitFlag_eq (k : Word) : emitFlag k = decide (2 ≤ k.toNat) := rfl

/-- STREAM_ACTIVE says that the count is not 0 (R194, R195), in whatever terms that is put. -/
theorem activeFlag_eq_decide {n : Word} {P : Prop} [Decidable P] (h : n ≠ 0#32 ↔ P) : activeFlag n = decide P := by
  rw [Bool.eq_iff_iff, decide_eq_true_iff, ← h]
  exact bne_iff_ne

/-- Division by eight on words is division on numbers: nothing wraps. -/
theorem udiv_eight_eq_ofNat (n : Word) : n / 8 = BitVec.ofNat 32 (n.toNat / 8) :=
  BitVec.udiv_def

theorem udiv_eight_ne_zero_iff (n : Word) : n / 8 ≠ 0#32 ↔ 8 ≤ n.toNat := by
  have hdiv : (n / 8).toNat = n.toNat / 8 := BitVec.toNat_udiv
  rw [← BitVec.toNat_ne_iff_ne, hdiv, BitVec.toNat_ofNat]
  omega

/-- A stream opens exactly when its input holds a whole pair (R194). -/
theorem activeFlag_udiv_eight (n : Word) : activeFlag (n / 8) = decide (8 ≤ n.toNat) :=
  activeFlag_eq_decide (udiv_eight_ne_zero_iff n)

/-- A stream goes on exactly when the pair just counted was not the last (R195). -/
theorem activeFlag_sub_one (n : Word) : activeFlag (n - 1) = decide (n ≠ 1#32) :=
  activeFlag_eq_decide (not_congr sub_eq_zero)

/-! ### The size rule and the stream commands -/

/-- Settles O44, by the arithmetic already done for STREAM_BEGIN's check. -/
theorem sizeOKMeansMultipleOfEight : Obligations.SizeOKMeansMultipleOfEight := sizeOK_iff_mod_eight

/-- STREAM_BEGIN on the number in ARG0 (R194). -/
theorem streamBeginEffect_eq (s : State) :
    streamBeginEffect s = { s with
      pairsLeft := BitVec.ofNat 32 (s.arg0.toNat / 8), pairIdx := 0, streamActive := decide (8 ≤ s.arg0.toNat),
      emit := false } := by
  rw [streamBeginEffect, activeFlag_udiv_eight, udiv_eight_eq_ofNat]

/-- Settles O45: the effect in numbers, and the retirement. -/
theorem streamBeginCountsThePairs : Obligations.StreamBeginCountsThePairs := by
  intro s hs
  rw [exec_completes hs]
  exact congrArg (fun t => Host.Outcome.next t.retire) (streamBeginEffect_eq s)

/-- STREAM_PAIR on the words of K1 and K2, with its flags as comparisons of numbers (R193, R195). -/
theorem streamPairEffect_eq (s : State) :
    streamPairEffect s = { s with
      a := (reverse (roundKeysOf s) (sBoxesOf s) (s.a, s.b)).1,
      b := (reverse (roundKeysOf s) (sBoxesOf s) (s.a, s.b)).2,
      emit := decide (2 ≤ s.pairIdx.toNat), pairIdx := s.pairIdx + 1, pairsLeft := s.pairsLeft - 1,
      streamActive := decide (s.pairsLeft ≠ 1#32) } := by
  rw [streamPairEffect, roundKeys_eq, sBoxes_eq, emitFlag_eq, activeFlag_sub_one, State.setPair]

/-- Settles O46: the effect over the keys as the statement reads them, and the retirement. -/
theorem streamPairDecryptsAndCounts : Obligations.StreamPairDecryptsAndCounts := by
  intro s hs
  rw [exec_completes hs]
  exact congrArg (fun t => Host.Outcome.next t.retire) (streamPairEffect_eq s)

/-! ### The abort of the stream -/

/-- The stream's counter and flags as an abort leaves them (R191). -/
def StreamClosed (t : State) : Prop := t.pairsLeft = 0#32 ∧ t.streamActive = false ∧ t.emit = false

theorem streamClosed_streamAbort (s : State) : StreamClosed s.streamAbort := ⟨rfl, rfl, rfl⟩

theorem StreamClosed.retire {t : State} (h : StreamClosed t) : StreamClosed t.retire := h

/-- DESCRAMBLE aborts the stream before it stores its keys, and the stores leave the stream. -/
theorem streamClosed_descrambleEffect (p : Config.Params) (s : State) : StreamClosed (descrambleEffect p s) :=
  ⟨descrambleEffect_pairsLeft p s, descrambleEffect_streamActive p s, descrambleEffect_emit p s⟩

/-- Each key command aborts the stream: KEY_COPY and KEY_XOR at the end of their effect, and FILE_SETUP with the
DESCRAMBLE that it ends in (R162, R191). -/
theorem streamClosed_completionEffect (p : Config.Params) (s : State) {i : Instr}
    (hi : i ∈ [Instr.keyCopy, .keyXor, .descramble, .fileSetup]) : StreamClosed (completionEffect p i s) := by
  cases i with
  | keyCopy | keyXor => exact streamClosed_streamAbort _
  | descramble => exact streamClosed_descrambleEffect p s
  | fileSetup => exact streamClosed_descrambleEffect p _
  | _ => simp at hi

/-- No key command opens a stream or counts a pair. -/
theorem not_stream_of_key {i : Instr} (hi : i ∈ [Instr.keyCopy, .keyXor, .descramble, .fileSetup]) :
    i ∉ [Instr.streamBegin, .streamPair] := by
  revert i
  decide

/-- Settles O47: the effect closes the stream, and PAIR_IDX is in the row of no key command. -/
theorem keyCommandsAbortTheStream : Obligations.KeyCommandsAbortTheStream := by
  intro i s hi hs
  obtain ⟨hleft, hactive, hemit⟩ := (streamClosed_completionEffect Config.thisHardware s hi).retire
  exact ⟨_, exec_completes hs, hleft, hactive, hemit,
    (registersKept_completionEffect i s).pairIdx (not_stream_of_key hi)⟩

end Sys2Proof.Machine

/-! SUPPORT. The control commands of spec/44_control.md at their completion. -/

namespace Sys2Proof.Machine

/-- NOP has no effect (R210). -/
theorem completionEffect_nop (p : Config.Params) (s : State) : completionEffect p .nop s = s := rfl

/-- ERR_CLEAR leaves the error state and does nothing else (R211). -/
theorem completionEffect_errClear (p : Config.Params) (s : State) : completionEffect p .errClear s = s.clearErr := rfl

/-- Settles O22: each command's effect, and the retirement that ends every completion step (R225). -/
theorem controlCommandsTouchOnlyErr : Obligations.ControlCommandsTouchOnlyErr := by
  intro s
  constructor
  · intro hs
    rw [exec_completes hs, completionEffect_nop, State.retire]
  · intro hs
    rw [exec_completes hs, completionEffect_errClear, State.clearErr, State.retire]

end Sys2Proof.Machine

/-! SUPPORT. The error model of spec/60_exceptions.md: how an idle block takes a command word, which code a failing check
records, and when the command in flight completes. -/

namespace Sys2Proof.Machine

/-! ### The engine's turn -/

theorem step_engine (s : State) (es : List Event) :
    step (s.setAgenda (.engine :: es)) = engineStep exec (s.setAgenda es) := rfl

/-- With no event to come the turn is the engine's (log entry 1). -/
theorem step_of_agenda_nil {s : State} (h : s.agenda = []) : step s = engineStep exec s := by
  rw [step, nextEvent, h]

theorem engineStep_of_inflight {s : State} {i : Instr} (h : s.inflight = some i) : engineStep exec s = exec i s := by
  rw [engineStep, h]

theorem engineStep_of_inflight_none {s : State} (h : s.inflight = none) : engineStep exec s = .next s := by
  rw [engineStep, h]

/-- Settles O5: both turns are `engineStep`, which looks at INFLIGHT only. -/
theorem engineTurnRunsTheCommandInFlight : Obligations.EngineTurnRunsTheCommandInFlight := by
  intro s es i
  have hlast : step (s.setAgenda []) = engineStep exec (s.setAgenda []) := step_of_agenda_nil (setAgenda_agenda s [])
  refine ⟨fun h => ?_, fun h => ?_, fun h => ?_⟩
  · rw [step_engine, engineStep_of_inflight (by rw [setAgenda_inflight, h])]
  · rw [hlast, engineStep_of_inflight (by rw [setAgenda_inflight, h])]
  · rw [hlast, engineStep_of_inflight_none (by rw [setAgenda_inflight, h])]

/-- Settles O18: a completion step is the command's effect and then `retire`. -/
theorem completionCannotFail : Obligations.CompletionCannotFail := by
  intro i s h
  exact ⟨_, exec_completes h, retire_inflight _, retire_busy _⟩

/-! ### A command word written to CMD -/

theorem setAgenda_self (s : State) : s.setAgenda s.agenda = s := rfl

/-- A 32-bit word is its own image in the opcode table's numbering of bits (R90). -/
theorem tableWord_toNat (w : Word) : tableWord 32 w.toNat = w := by
  rw [tableWord, Nat.mod_eq_of_lt w.isLt, BitVec.ofNat_toNat, BitVec.setWidth_eq]

/-- `withFetchWord` is a write of the word to CMD as the next event (log entry 2). -/
theorem withFetchWord_eq (s : State) (w : Word) :
    s.withFetchWord 32 w.toNat = s.setAgenda (.host (.write 0x00000 4 w) :: s.agenda) := by
  rw [State.withFetchWord, tableWord_toNat]
  rfl

/-- A command's word goes to the command's meaning (R223). -/
theorem issueWord_of_decode {run : Instr → State → Host.Outcome State Fault Refusal} {w : Word} {i : Instr} (s : State)
    (h : decode w = .ok i) : issueWord run w s = run i s := by
  rw [issueWord, h]

/-- A write of a command's word to CMD while BUSY = 0 runs the command (R223). -/
theorem step_write_cmd_of_decode (s : State) (es : List Event) {w : Word} {i : Instr} (hb : s.busy = false)
    (hd : decode w = .ok i) : step (s.setAgenda (.host (.write 0x00000 4 w) :: es)) = exec i (s.setAgenda es) := by
  rw [step_write_cmd s es w hb, issueWord_of_decode _ hd]

/-- The command that `withFetchWord` places runs on the state as it was (log entry 2). -/
theorem step_withFetchWord (s : State) {w : Word} {i : Instr} (hb : s.busy = false) (hd : decode w = .ok i) :
    step (s.withFetchWord 32 w.toNat) = exec i s := by
  rw [withFetchWord_eq, step_write_cmd_of_decode s _ hb hd, setAgenda_self]

/-- Settles O4: while BUSY = 0 the write issues the word, and the word goes to its command. -/
theorem stepRunsTheCommandWritten : Obligations.StepRunsTheCommandWritten := by
  intro s es w i hb hd
  exact ⟨step_write_cmd_of_decode s es hb hd, step_withFetchWord s hb hd⟩

/-! ### Acceptance -/

/-- An idle block accepts ERR_CLEAR whatever ERR is (R211). -/
theorem exec_errClear_accepts {s : State} (hidle : Idle s) : exec .errClear s = .next (s.accept .errClear) := by
  obtain ⟨hbusy, hinflight⟩ := hidle
  rw [exec_issues (by simp [hinflight]), issue_accepts hbusy (.inr rfl) rfl]

/-- Settles O6: either no error is recorded, or the command is the one that the sticky-error drop spares. -/
theorem acceptedCommandGoesInFlight : Obligations.AcceptedCommandGoesInFlight := by
  intro i s hidle herr hcond
  rcases herr with herr | rfl
  · exact exec_accepts hidle herr hcond
  · exact exec_errClear_accepts hidle

/-- Settles O7: the write runs the command, which is accepted; with nothing else to come the next turn is the engine's,
which completes it. -/
theorem acceptedCommandCompletesInTwoSteps : Obligations.AcceptedCommandCompletesInTwoSteps := by
  intro i s hidle hagenda herr hcond
  refine ⟨s.afterCommand i, ?_, ?_, idle_afterCommand i s⟩
  · rw [step_withFetchWord s hidle.1 (decode_encode i)]
    exact acceptedCommandGoesInFlight i s hidle herr hcond
  · rw [step_of_agenda_nil (by rw [accept_agenda, hagenda]), engineStep_of_inflight (accept_inflight s i),
      exec_accept]

/-! ### Rejection -/

/-- An idle block without an error records the code of the first check that fails, and nothing else changes (R223
step 4, R224). -/
theorem exec_rejects {i : Instr} {s : State} {c : ErrCode} (hidle : Idle s) (herr : s.err = 0#4)
    (hc : issueCheck Config.thisHardware i s = some c) : exec i s = .next { s with err := c.code } := by
  obtain ⟨hbusy, hinflight⟩ := hidle
  rw [exec_issues (by simp [hinflight]), issue_rejects hbusy herr hc]

theorem require_of_false {ok : Bool} (c : ErrCode) (h : ok = false) : require ok c = some c := by
  rw [h, require_false]

/-- Two checks that record the same code are one check of both conditions. -/
theorem require_or_require (ok ok' : Bool) (c : ErrCode) :
    (require ok c).or (require ok' c) = require (ok && ok') c := by
  cases ok <;> rfl

/-- Settles O9: the missing step is the first check of the command, or the second of KEY_XOR, which records the same
code. -/
theorem missingEarlierStepIsRecorded : Obligations.MissingEarlierStepIsRecorded := by
  intro i s hidle herr
  constructor
  · rintro rfl hseeded
    exact exec_rejects (i := .prngNext) (c := .notSeeded) hidle herr (require_of_false .notSeeded hseeded)
  · intro hmissing
    refine exec_rejects (c := .sequence) hidle herr ?_
    rcases hmissing with ⟨rfl, hsteps⟩ | ⟨hi, hcopied⟩ | ⟨rfl, hready⟩ | ⟨rfl, hactive⟩
    · have hboth : (s.keysCopied && s.fkeyValid) = false := Bool.and_eq_false_iff.2 hsteps
      exact (require_or_require _ _ _).trans (require_of_false .sequence hboth)
    · simp only [List.mem_cons, List.not_mem_nil, or_false] at hi
      rcases hi with rfl | rfl | rfl | rfl <;> exact require_of_false .sequence hcopied
    · exact Option.or_eq_some_iff.2 (.inl (require_of_false .sequence hready))
    · exact require_of_false .sequence hactive

/-- An illegal key length, of either key, records CONFIG (R159). -/
theorem keyLenCheck_of_not_legal {s : State} (h : ¬ LegalLengths s.key1Len.toNat s.key2Len.toNat) :
    keyLenCheck Config.thisHardware s = some .config := by
  rw [← keyLenCheck_eq_none_iff, keyLenCheck, require_or_require, require_eq_none, Bool.not_eq_true] at h
  rw [keyLenCheck, require_or_require, require_of_false _ h]

/-- A name operand that is too long records NAME_LEN (R136). -/
theorem nameCheck_of_lt {s : State} (h : 256 < s.nameLen.toNat) :
    nameCheck Config.thisHardware s = some .nameLen :=
  require_of_false _ (Bool.eq_false_iff.2 (mt (nameLenLegal_iff _).1 (by omega)))

/-- Settles O10: the operand's check is the command's first, or the checks before it (FILE_SETUP's on the key lengths,
STREAM_BEGIN's on KEYS_READY) have passed. -/
theorem badOperandIsRecorded : Obligations.BadOperandIsRecorded := by
  intro i s hidle herr
  refine ⟨fun hi hlens => ?_, fun hname hi => ?_, ?_⟩
  · have hconfig := keyLenCheck_of_not_legal hlens
    refine exec_rejects (c := .config) hidle herr ?_
    simp only [List.mem_cons, List.not_mem_nil, or_false] at hi
    rcases hi with rfl | rfl
    · exact hconfig
    · exact Option.or_eq_some_iff.2 (.inl hconfig)
  · have hlong := nameCheck_of_lt hname
    refine exec_rejects (c := .nameLen) hidle herr ?_
    simp only [List.mem_cons, List.not_mem_nil, or_false] at hi
    rcases hi with (rfl | rfl | rfl) | ⟨rfl, hlens⟩
    · exact hlong
    · exact hlong
    · exact hlong
    · exact Option.or_eq_some_iff.2 (.inr ⟨(keyLenCheck_eq_none_iff s).2 hlens, hlong⟩)
  · rintro rfl hready hsize
    have hbad : sizeOK s.arg0.toNat = false := Bool.eq_false_iff.2 (mt (sizeOK_iff_mod_eight _).1 hsize)
    exact exec_rejects (c := .inputSize) hidle herr
      (Option.or_eq_some_iff.2 (.inr ⟨require_eq_none.2 hready, require_of_false _ hbad⟩))

/-! ### The sticky error -/

/-- The issue of a command other than ERR_CLEAR while nothing is in flight and an error is recorded (R223 step 2). -/
theorem issue_drops {i : Instr} (check : State → Option ErrCode) {s : State} (hb : s.busy = false) (he : s.err ≠ 0#4)
    (hi : i ≠ .errClear) : issue i check s = s := by
  rw [issue, if_neg (Bool.eq_false_iff.1 hb), if_pos ⟨he, hi⟩]

/-- While ERR ≠ 0 an idle block drops every command but ERR_CLEAR (R227). -/
theorem exec_drops {i : Instr} {s : State} (hidle : Idle s) (herr : s.err ≠ 0#4) (hi : i ≠ .errClear) :
    exec i s = .next s := by
  obtain ⟨hbusy, hinflight⟩ := hidle
  rw [exec_issues (by simp [hinflight]), issue_drops _ hbusy herr hi]

/-- Settles O11: a word that is a command's is not ERR_CLEAR's, and one that is no command's records nothing while
ERR ≠ 0. -/
theorem stickyErrorDropsEveryOtherWord : Obligations.StickyErrorDropsEveryOtherWord := by
  intro s es w hidle herr hw
  have hidle' : Idle (s.setAgenda es) := hidle
  rw [step_write_cmd s es w hidle.1]
  rcases issueWord_cases (run := exec) w (s.setAgenda es) with ⟨i, hd, e⟩ | ⟨-, -, e⟩ | ⟨-, h, -⟩
  · have hi : i ≠ .errClear := by
      rintro rfl
      exact hw ((decode_eq_ok_iff w .errClear).1 hd)
    rw [e, exec_drops hidle' herr hi]
  · exact e
  · exact absurd h herr

end Sys2Proof.Machine

/-! SUPPORT. The reset event of spec/70_reset_and_hazards.md: it leaves every register at its reset value (R250), and so
an idle block in which no command has an earlier step to stand on (R251). -/

namespace Sys2Proof.Machine

/-! ### The registers -/

/-- The reset event happens in every state, whatever is in flight (R250). -/
theorem step_reset (s : State) (es : List Event) :
    step (s.setAgenda (.reset :: es)) = .next (s.setAgenda es).onReset := rfl

/-- After the reset event STATUS reads 0: BUSY, the flags and ERR are 0, and the other bits always are (R24, R250). -/
theorem onReset_statusWord (s : State) : s.onReset.statusWord = 0 := by
  simp only [State.statusWord, onReset_busy, onReset_prngValid, onReset_fkeyValid, onReset_keysCopied,
    onReset_keysReady, onReset_streamActive, onReset_emit, onReset_err]
  decide

/-- ID is a constant (R39), so a reset leaves it as it is. -/
theorem regValue_id (s : State) : s.regValue .id = 0x42425401 := rfl

/-- Settles O59: the state after the event is `onReset`, whose registers are those of `State.reset` whatever came
before. -/
theorem resetEventSetsEveryRegister : Obligations.ResetEventSetsEveryRegister := by
  intro s es
  refine ⟨_, step_reset s es, onReset_inflight _, onReset_statusWord _, ?_⟩
  simp [regValue_id]

/-! ### The commands -/

/-- After the reset event nothing is in flight, so the next command word is issued (R250, R223). -/
theorem idle_onReset (s : State) : Idle s.onReset := ⟨onReset_busy s, onReset_inflight s⟩

/-- After the reset event PRNG_NEXT finds no seed (R251). -/
theorem exec_prngNext_onReset (s : State) : exec .prngNext s.onReset = .next { s.onReset with err := 4 } :=
  (missingEarlierStepIsRecorded .prngNext s.onReset (idle_onReset s) (onReset_err s)).1 rfl (onReset_prngValid s)

/-- After the reset event every command that needs copied keys, descrambled keys or a stream misses its earlier step
(R251). -/
theorem exec_key_or_stream_onReset (s : State) {i : Instr}
    (hi : i ∈ [Instr.keyXor, .descramble, .blockEnc, .blockDec, .sfunc, .streamBegin, .streamPair]) :
    exec i s.onReset = .next { s.onReset with err := 5 } := by
  refine (missingEarlierStepIsRecorded i s.onReset (idle_onReset s) (onReset_err s)).2 ?_
  simp only [List.mem_cons, List.not_mem_nil, or_false] at hi
  rcases hi with rfl | rfl | rfl | rfl | rfl | rfl | rfl <;> simp

/-- Settles O60: the block is idle with ERR = 0 and every flag 0, so each command meets the missing step of O9. -/
theorem afterResetNothingIsValid : Obligations.AfterResetNothingIsValid := by
  intro s es
  refine ⟨_, step_reset s es, ⟨onReset_prngValid _, onReset_fkeyValid _, onReset_keysCopied _, onReset_keysReady _,
    onReset_streamActive _, onReset_emit _⟩, exec_prngNext_onReset _, fun _ hi => exec_key_or_stream_onReset _ hi⟩

end Sys2Proof.Machine
